-- ==== Sys2Proof/Word.lean ====
section
/-! DEFINITION. The words of the block: the 256-bit register value, the 32-bit bus word, the byte, and the indexes that
select a W register, a point register, a word of a W register and a word of the DER buffer. -/

namespace Sys2Proof

/-- The value of one W register: an unsigned 256-bit integer (R7, R22). -/
abbrev Word := BitVec 256

/-- One host bus word, and one command word (R48, R71). -/
abbrev Bus := BitVec 32

/-- One byte of the entropy port or of the DER buffer (R52, R66). -/
abbrev Byte := BitVec 8

/-- Selects W0 to W15 (R22, R72). -/
abbrev WIdx := Fin 16

/-- Selects P0 to P7 (R24, R72). -/
abbrev PIdx := Fin 8

/-- Selects word 0 to 7 of one W register, least significant first (R50). -/
abbrev Lane := Fin 8

/-- Selects word 0 to 17 of the DER buffer (R52). -/
abbrev DerLane := Fin 18

/-- The modulus that a field command's `msel` bit selects: 0 is p, 1 is n (R73). -/
inductive Modulus where
  | p
  | n
  deriving DecidableEq, Repr

end Sys2Proof
end

