-- ==== Sys2Proof/Syntax.lean ====
section
/-! DEFINITION. The commands of the block, one constructor per row of the opcode map (R75), operands in the order of the
assembler syntax (R82): destinations first, then sources. -/

namespace Sys2Proof

/-- One command (R75). A register field that the row marks "W" is a `WIdx`, one it marks "P" is a `PIdx`. -/
inductive Instr where
  /-- `NOP` (R99). -/
  | nop
  /-- `FADD.m Wd, Wa, Wb` (R100). -/
  | fadd (m : Modulus) (rd ra rb : WIdx)
  /-- `FSUB.m Wd, Wa, Wb` (R101). -/
  | fsub (m : Modulus) (rd ra rb : WIdx)
  /-- `FMUL.m Wd, Wa, Wb` (R102). -/
  | fmul (m : Modulus) (rd ra rb : WIdx)
  /-- `FINV.m Wd, Wa` (R103). -/
  | finv (m : Modulus) (rd ra : WIdx)
  /-- `PDBL Pd, Pa` (R120). -/
  | pdbl (rd ra : PIdx)
  /-- `PADD Pd, Pa, Pb` (R121). -/
  | padd (rd ra rb : PIdx)
  /-- `PMUL Pd, Wa, Pb` (R122). -/
  | pmul (rd : PIdx) (ra : WIdx) (rb : PIdx)
  /-- `PMUL.G Pd, Wa` (R122). -/
  | pmulG (rd : PIdx) (ra : WIdx)
  /-- `PCHK Wd, Pa` (R123). -/
  | pchk (rd : WIdx) (ra : PIdx)
  /-- `SIGN Wr, Ws, We, Wd` (R125): fields rd, rc, ra, rb. -/
  | sign (wr ws we wd : WIdx)
  /-- `DER Wr, Ws` (R137): fields ra, rb. -/
  | der (wr ws : WIdx)
  deriving DecidableEq, Repr

end Sys2Proof
end

