-- ==== Sys2Proof/WellFormed.lean ====
section
/-! DEFINITION. Which commands the block accepts as encoded. The register bounds stand in the operand types; what is
left is SIGN's two destinations (R77 (e)). -/

namespace Sys2Proof

/-- SIGN's destinations differ (R77 (e), R125). -/
def signDestsDiffer : Instr → Bool
  | .sign wr ws _ _ => wr != ws
  | .nop | .fadd .. | .fsub .. | .fmul .. | .finv .. | .pdbl .. | .padd .. | .pmul .. | .pmulG .. | .pchk .. | .der .. => true

/-- A command that has an encoding: every word is either one row of R76 or illegal (R78). -/
def Instr.wellFormed (i : Instr) : Bool := signDestsDiffer i

end Sys2Proof
end

