-- ==== Sys2Proof/Decode.lean ====
section
/-! DEFINITION. Decoding a command word by the mask and match rows of R76, in the order and manner of R81, and the encoder
that assembles a command's word from its fields (R71, R75). -/

namespace Sys2Proof

/-- The fields of a command word (R71). -/
structure Fields where
  opc : BitVec 8
  rd : BitVec 4
  ra : BitVec 4
  rb : BitVec 4
  rc : BitVec 4
  msel : BitVec 1
  gsel : BitVec 1
  deriving DecidableEq, Repr

/-- Takes a command word apart (R71, R81). -/
def fieldsOf (c : Bus) : Fields where
  opc := c.extractLsb' 0 8
  rd := c.extractLsb' 8 4
  ra := c.extractLsb' 12 4
  rb := c.extractLsb' 16 4
  rc := c.extractLsb' 20 4
  msel := c.extractLsb' 24 1
  gsel := c.extractLsb' 25 1

/-- Assembles a command word: `cmd = {000000, gsel, msel, rc, rb, ra, rd, opc}` (R71). -/
def pack (f : Fields) : Bus :=
  0#6 ++ f.gsel ++ f.msel ++ f.rc ++ f.rb ++ f.ra ++ f.rd ++ f.opc

/-- A 4-bit field as a W index: it selects W0 to W15 directly (R72). -/
def wIdxOf (f : BitVec 4) : WIdx := f.toFin

/-- A 4-bit field as a point index: bits [2:0] select P0 to P7 (R72; the row's mask has refused bit 3). -/
def pIdxOf (f : BitVec 4) : PIdx := (f.extractLsb' 0 3).toFin

/-- The modulus of a `msel` bit (R73). -/
def modulusOf (b : BitVec 1) : Modulus := if b = 0#1 then .p else .n

/-- A W index as a 4-bit field (R72). -/
def wField (i : WIdx) : BitVec 4 := BitVec.ofFin i

/-- A point index as a 4-bit field, bit 3 clear (R72). -/
def pField (j : PIdx) : BitVec 4 := 0#1 ++ (BitVec.ofFin j : BitVec 3)

/-- The `msel` bit of a modulus (R73). -/
def mselOf : Modulus → BitVec 1
  | .p => 0#1
  | .n => 1#1

/-- One row of the opcode map as R76 gives it: a word spells the row when its bits under `mask` are `bits`. `build` makes
the row's command from the fields, and answers none where the row has a further condition that fails. -/
structure Row where
  mask : Bus
  bits : Bus
  build : Fields → Option Instr

/-- The row's mask and match hold of the word (R76). -/
def Row.spells (r : Row) (c : Bus) : Bool := c &&& r.mask == r.bits

def rowNop : Row := ⟨0xFFFFFFFF#32, 0x00000000#32, fun _ => some .nop⟩

def rowFadd : Row :=
  ⟨0xFEF000FF#32, 0x00000001#32, fun f => some (.fadd (modulusOf f.msel) (wIdxOf f.rd) (wIdxOf f.ra) (wIdxOf f.rb))⟩

def rowFsub : Row :=
  ⟨0xFEF000FF#32, 0x00000002#32, fun f => some (.fsub (modulusOf f.msel) (wIdxOf f.rd) (wIdxOf f.ra) (wIdxOf f.rb))⟩

def rowFmul : Row :=
  ⟨0xFEF000FF#32, 0x00000003#32, fun f => some (.fmul (modulusOf f.msel) (wIdxOf f.rd) (wIdxOf f.ra) (wIdxOf f.rb))⟩

def rowFinv : Row :=
  ⟨0xFEFF00FF#32, 0x00000004#32, fun f => some (.finv (modulusOf f.msel) (wIdxOf f.rd) (wIdxOf f.ra))⟩

def rowPdbl : Row :=
  ⟨0xFFFF88FF#32, 0x00000010#32, fun f => some (.pdbl (pIdxOf f.rd) (pIdxOf f.ra))⟩

def rowPadd : Row :=
  ⟨0xFFF888FF#32, 0x00000011#32, fun f => some (.padd (pIdxOf f.rd) (pIdxOf f.ra) (pIdxOf f.rb))⟩

def rowPmul : Row :=
  ⟨0xFFF808FF#32, 0x00000012#32, fun f => some (.pmul (pIdxOf f.rd) (wIdxOf f.ra) (pIdxOf f.rb))⟩

def rowPmulG : Row :=
  ⟨0xFFFF08FF#32, 0x02000012#32, fun f => some (.pmulG (pIdxOf f.rd) (wIdxOf f.ra))⟩

def rowPchk : Row :=
  ⟨0xFFFF80FF#32, 0x00000013#32, fun f => some (.pchk (wIdxOf f.rd) (pIdxOf f.ra))⟩

/-- SIGN's row also needs rd to differ from rc (R76, R77 (e)). -/
def rowSign : Row :=
  ⟨0xFF0000FF#32, 0x00000020#32, fun f =>
    if f.rd = f.rc then none else some (.sign (wIdxOf f.rd) (wIdxOf f.rc) (wIdxOf f.ra) (wIdxOf f.rb))⟩

def rowDer : Row :=
  ⟨0xFFF00FFF#32, 0x00000021#32, fun f => some (.der (wIdxOf f.ra) (wIdxOf f.rb))⟩

/-- The rows of R76, in its order. -/
def rows : List Row :=
  [rowNop, rowFadd, rowFsub, rowFmul, rowFinv, rowPdbl, rowPadd, rowPmul, rowPmulG, rowPchk, rowSign, rowDer]

/-- What a word decodes to: a command, or ILLEGAL (R77, R81). -/
inductive Decoded where
  | row (i : Instr)
  | illegal
  deriving DecidableEq, Repr

/-- The command a row reads from a word, none when the word does not spell the row. -/
def Row.read (r : Row) (c : Bus) : Option Instr :=
  if r.spells c then r.build (fieldsOf c) else none

/-- The decoder of R81: the first row that the word spells; total, and ILLEGAL when there is none. -/
def decode (c : Bus) : Decoded :=
  match rows.findSome? (fun r => r.read c) with
  | some i => .row i
  | none => .illegal

/-- The row of a command (R75, R76). -/
def rowOf : Instr → Row
  | .nop => rowNop
  | .fadd .. => rowFadd
  | .fsub .. => rowFsub
  | .fmul .. => rowFmul
  | .finv .. => rowFinv
  | .pdbl .. => rowPdbl
  | .padd .. => rowPadd
  | .pmul .. => rowPmul
  | .pmulG .. => rowPmulG
  | .pchk .. => rowPchk
  | .sign .. => rowSign
  | .der .. => rowDer

/-- The fields of a command, by the columns of R75; a field the command does not use is 0. -/
def fieldsFor : Instr → Fields
  | .nop => ⟨0x00#8, 0, 0, 0, 0, 0, 0⟩
  | .fadd m rd ra rb => ⟨0x01#8, wField rd, wField ra, wField rb, 0, mselOf m, 0⟩
  | .fsub m rd ra rb => ⟨0x02#8, wField rd, wField ra, wField rb, 0, mselOf m, 0⟩
  | .fmul m rd ra rb => ⟨0x03#8, wField rd, wField ra, wField rb, 0, mselOf m, 0⟩
  | .finv m rd ra => ⟨0x04#8, wField rd, wField ra, 0, 0, mselOf m, 0⟩
  | .pdbl rd ra => ⟨0x10#8, pField rd, pField ra, 0, 0, 0, 0⟩
  | .padd rd ra rb => ⟨0x11#8, pField rd, pField ra, pField rb, 0, 0, 0⟩
  | .pmul rd ra rb => ⟨0x12#8, pField rd, wField ra, pField rb, 0, 0, 0⟩
  | .pmulG rd ra => ⟨0x12#8, pField rd, wField ra, 0, 0, 0, 1⟩
  | .pchk rd ra => ⟨0x13#8, wField rd, pField ra, 0, 0, 0, 0⟩
  | .sign wr ws we wd => ⟨0x20#8, wField wr, wField we, wField wd, wField ws, 0, 0⟩
  | .der wr ws => ⟨0x21#8, 0, wField wr, wField ws, 0, 0, 0⟩

/-- The word of a command (R71, R75). -/
def encode (i : Instr) : Bus := pack (fieldsFor i)

/-- The low `nbits` bits of `w` as one command word; none when they do not fit in the 32 bits of the one format (R79). -/
def tableWord (nbits w : Nat) : Option Bus :=
  if w % 2 ^ nbits < 2 ^ 32 then some (BitVec.ofNat 32 (w % 2 ^ nbits)) else none

/-- The decoder on a word given as the opcode table numbers its bits (bit 0 least significant, as in R71). -/
def decodeTableWord (nbits w : Nat) : Option Instr :=
  match tableWord nbits w with
  | none => none
  | some c =>
    match decode c with
    | .row i => some i
    | .illegal => none

end Sys2Proof
end

