-- ==== Sys2Proof/Machine/Arith.lean ====
section
/-! DEFINITION. The curve constants (R18 to R21) and the modular arithmetic of R8: exact integers, reduced at the end. -/

namespace Sys2Proof.Machine

/-- The field prime p (R18). -/
def fieldPrime : Nat := 0xFFFFFFFFFFFFFFFFFFFFFFFFFFFFFFFFFFFFFFFFFFFFFFFFFFFFFFFEFFFFFC2F

/-- The group order n (R20). -/
def groupOrder : Nat := 0xFFFFFFFFFFFFFFFFFFFFFFFFFFFFFFFEBAAEDCE6AF48A03BBFD25E8CD0364141

/-- The cofactor h (R20). No command uses it. -/
def cofactor : Nat := 1

/-- The curve coefficient a (R18). -/
def curveA : Nat := 0

/-- The curve coefficient b (R18). -/
def curveB : Nat := 7

/-- The base point's x coordinate (R19). -/
def baseX : Nat := 0x79BE667EF9DCBBAC55A06295CE870B07029BFCDB2DCE28D959F2815B16F81798

/-- The base point's y coordinate (R19). -/
def baseY : Nat := 0x483ADA7726A3C4655DA4FBFC0E1108A8FD17B448A68554199C47D08FFB10D4B8

/-- M(msel) (R73). -/
def modulusValue : Modulus → Nat
  | .p => fieldPrime
  | .n => groupOrder

/-- `z mod m`: the unique r with 0 ≤ r < m and m dividing z - r, non-negative for negative z too (R8). -/
def residue (z : Int) (m : Nat) : Nat := (z % (m : Int)).toNat

/-- The extended Euclidean loop mod m. `t0` and `t1` are the multipliers that take a to the remainders `r0` and `r1`. -/
def euclidLoop (m : Nat) : Nat → Nat → Nat → Nat → Nat → Nat
  | 0, _, _, t0, _ => t0
  | fuel + 1, r0, r1, t0, t1 =>
    if r1 = 0 then t0
    else euclidLoop m fuel r1 (r0 % r1) t1 (residue ((t0 : Int) - (r0 / r1 : Nat) * t1) m)

/-- `inv(a, m)` for `gcd(a mod m, m) = 1` and m below 2^256 (R8), by the extended Euclidean algorithm that R105 leaves
free. Two divisions halve a remainder, so 514 are enough for 256 bits. -/
def inv (a m : Nat) : Nat := euclidLoop m 514 m (a % m) 0 1

end Sys2Proof.Machine
end

