-- ==== Sys2Proof/Machine/Curve.lean ====
section
/-! DEFINITION. Point values (R10) and the point functions `PDouble`, `PAdd`, `PScalar` and `OnCurve` (R110 to R114). -/

namespace Sys2Proof.Machine

/-- A point value: the point at infinity, or a pair of integers (R10). -/
inductive Point where
  | inf
  | fin (x y : Nat)
  deriving DecidableEq, Repr

/-- The base point G (R19). -/
def basePoint : Point := .fin baseX baseY

/-- `PDouble`: the tangent-line doubling (R111). -/
def pDouble : Point → Point
  | .inf => .inf
  | .fin px py =>
    let x := px % fieldPrime
    let y := py % fieldPrime
    if y = 0 then .inf
    else
      let lam := residue ((3 * x * x + curveA : Nat) * (inv (2 * y % fieldPrime) fieldPrime : Int)) fieldPrime
      let x3 := residue ((lam : Int) * lam - 2 * x) fieldPrime
      let y3 := residue ((lam : Int) * ((x : Int) - x3) - y) fieldPrime
      .fin x3 y3

/-- `PAdd`: the chord addition with its special cases, in the order of R112. None is `raise Err(ARITH_DOMAIN)`: equal x
and unrelated y. -/
def pAdd : Point → Point → Option Point
  | .inf, q => some q
  | .fin x y, .inf => some (.fin x y)
  | .fin x y, .fin x' y' =>
    let px := x % fieldPrime
    let py := y % fieldPrime
    let qx := x' % fieldPrime
    let qy := y' % fieldPrime
    if px = qx then
      if py = qy then some (pDouble (.fin px py))
      else if (py + qy) % fieldPrime = 0 then some .inf
      else none
    else
      let lam := residue (((qy : Int) - py) * (inv (residue ((qx : Int) - px) fieldPrime) fieldPrime : Int)) fieldPrime
      let x3 := residue ((lam : Int) * lam - px - qx) fieldPrime
      let y3 := residue ((lam : Int) * ((px : Int) - x3) - py) fieldPrime
      some (.fin x3 y3)

/-- The scan of R113 over bits `i - 1` down to 0 of k: double, and add P where the bit is set. None is ARITH_DOMAIN. -/
def pScalarLoop (k : Nat) (p : Point) : Nat → Point → Option Point
  | 0, acc => some acc
  | i + 1, acc =>
    if k.testBit i then
      match pAdd (pDouble acc) p with
      | none => none
      | some q => pScalarLoop k p i q
    else pScalarLoop k p i (pDouble acc)

/-- `PScalar`: double-and-add from bit 255 (R113). -/
def pScalar (k : Nat) (p : Point) : Option Point := pScalarLoop k p 256 .inf

/-- `OnCurve`: the curve equation as a congruence on the raw coordinates (R114). -/
def onCurve : Point → Bool
  | .inf => true
  | .fin x y => residue ((y : Int) * y - ((x : Int) * x * x + curveA * x + curveB)) fieldPrime == 0

/-- `-(x, y)` is `(x, (-y) mod p)`, and `-INF` is INF (R10). -/
def pNeg : Point → Point
  | .inf => .inf
  | .fin x y => .fin x (residue (-(y : Int)) fieldPrime)

/-- Two points are equal when both are INF, or when their coordinates reduced mod p are equal (R10, R110). -/
def pEqual : Point → Point → Bool
  | .inf, .inf => true
  | .fin x y, .fin x' y' => x % fieldPrime == x' % fieldPrime && y % fieldPrime == y' % fieldPrime
  | .inf, .fin .. => false
  | .fin .., .inf => false

end Sys2Proof.Machine
end

