-- ==== Sys2Proof/Machine/DerCode.lean ====
section
/-! DEFINITION. The DER byte strings of 44_der.md, and the big-endian reading of the entropy port's bytes (R66). -/

namespace Sys2Proof.Machine

/-- The 32 bytes of v, most significant first. -/
def wordBytes (v : Word) : List Byte := (List.range 32).map fun t => v.extractLsb' (8 * (31 - t)) 8

/-- `be_bytes(v)`: the big-endian bytes of v with no leading zero byte, and [0x00] for 0 (R135). -/
def beBytes (v : Word) : List Byte :=
  match (wordBytes v).dropWhile (fun b => b == 0#8) with
  | [] => [0#8]
  | b :: bs => b :: bs

/-- Puts 0x00 before a string whose first byte has its high bit set (R135). -/
def padSign : List Byte → List Byte
  | [] => []
  | b :: bs => if 0x80#8 ≤ b then 0#8 :: b :: bs else b :: bs

/-- `DerInt(v)` (R135). -/
def derInt (v : Word) : List Byte :=
  let c := padSign (beBytes v)
  0x02#8 :: BitVec.ofNat 8 c.length :: c

/-- `DerSig(r, s)`: r first, then s (R136, R142). -/
def derSig (r s : Word) : List Byte :=
  let body := derInt r ++ derInt s
  0x30#8 :: BitVec.ofNat 8 body.length :: body

/-- The integer a big-endian byte string writes: the sum of `b[t] * 256^(len-1-t)` (R54, R66). -/
def beValue (bs : List Byte) : Nat := bs.foldl (fun acc b => 256 * acc + b.toNat) 0

/-- The draw k that 32 delivered bytes stand for (R66). -/
def drawOf (b : Vector Byte 32) : Word := BitVec.ofNat 256 (beValue b.toList)

end Sys2Proof.Machine
end

