-- ==== Sys2Proof/Config.lean ====
section
/-! DEFINITION. What the platform fixes and what it alone decides: the parameters `BASE` and `SIGN_MAX_ATTEMPTS` (R6),
the host bus accesses the platform brings to the block with the responses it takes back, and the one free value
of the model, the platform's answer to an access that arrives during a hardware reset (R166). -/

namespace Sys2Proof

/-- One host bus access, at a platform address, of `size` bytes (R46, R48, R84).
A write carries 32 data bits: a write of any other size stores nothing (R48), so its data is left out. -/
inductive Access where
  | read (addr size : Nat)
  | write (addr size : Nat) (data : Bus)
  deriving DecidableEq, Repr

/-- The platform address an access is made at. -/
def Access.addr : Access → Nat
  | .read a _ => a
  | .write a _ _ => a

/-- How many bytes an access moves. -/
def Access.size : Access → Nat
  | .read _ z => z
  | .write _ z _ => z

/-- What the bus answers to an access. -/
inductive Response where
  /-- No access has been made yet. -/
  | quiet
  /-- A read completed with this word. -/
  | data (v : Bus)
  /-- A write completed (whether it was performed, ignored or dropped). -/
  | done
  /-- The bus error response of R48 and R68. -/
  | busError
  /-- The address lies outside the block's window: the platform does not route the access here (R46, R65). -/
  | notRouted
  deriving DecidableEq, Repr, Inhabited

/-- The model's open parameters (R6). They are fixed for one machine: no step and no reset changes them. -/
structure Config where
  /-- `BASE`: the platform address of the window, a multiple of 4096. -/
  base : Nat
  /-- `SIGN_MAX_ATTEMPTS`: the most draws one SIGN makes, at least 1. -/
  signMaxAttempts : Nat
  deriving DecidableEq, Repr

/-- The parameters of the machine after reset. DESIGN CHOICE, unsafe (log entry 6): the spec leaves `BASE` open, and the
model takes 0. The cap is the spec's own default (R6). -/
def Config.default : Config := { base := 0, signMaxAttempts := 65536 }

/-- What R6 asks of the parameters. DEDUCED (log entry 7): the cap is below 2^32, because the 32-bit SIGN_DRAWS holds it
when SIGN reaches the cap (R34). -/
abbrev Config.Ok (c : Config) : Prop :=
  c.base % 4096 = 0 ∧ 1 ≤ c.signMaxAttempts ∧ c.signMaxAttempts < 2 ^ 32

/-- A FREE VALUE (log entry 5): how the platform answers the `count`-th access that arrives while `RST` is asserted.
"The platform decides how an access that arrives then is answered" (R166). Nothing is known of it. -/
opaque Config.answerDuringReset : Nat → Access → Response

end Sys2Proof
end

