-- ==== Sys2Proof/Machine/State.lean ====
section
/-! DEFINITION. The state of the block as plain data (10_state.md), what makes a step stop, and the state after reset.
The last fields are the model's own: what the outside world is about to do, and what the bus last answered. -/

namespace Sys2Proof.Machine

/-- The engine's state (R35). STATUS.BUSY is 1 exactly when it is not `idle`. -/
inductive EngState where
  | idle
  | run
  | waitEntropy
  deriving DecidableEq, Repr

/-- The outcome of the last completed command (R143). The codes 0x07 to 0xFF are never produced and have no constructor. -/
inductive ErrCode where
  | none
  | illegalCmd
  | inputError
  | keyFormat
  | arithDomain
  | precondition
  | retryLimit
  deriving DecidableEq, Repr

/-- SIGN's operand values (R35, R125): the digest e and the key d. -/
structure Snap where
  e : Word
  d : Word
  deriving DecidableEq, Repr

/-- One step of one agent (R13, R17, R165): what the outside world does, or the engine's turn. -/
inductive Event where
  /-- The host makes one bus access (20_memory.md). -/
  | host (a : Access)
  /-- The engine takes its next step, if it has one (R90, R96). -/
  | engine
  /-- The entropy agent delivers the 32 bytes b[0..31] (R66). -/
  | entropy (b : Vector Byte 32)
  /-- The platform asserts `RST` (R166). -/
  | assertRst
  /-- The platform releases `RST` (R166). -/
  | releaseRst
  deriving DecidableEq, Repr

/-- The machine. The comment of a field names the rule that gives it. -/
structure State where
  /-- W0 to W15 (R22). -/
  w : Vector Word 16
  /-- VALID[15:0], the written bits, read at W_VALID (R23, R31). -/
  valid : BitVec 16
  /-- PINF[7:0], the infinity bits (R24, R26). -/
  pinf : BitVec 8
  /-- CTRL.IE (R27). -/
  ie : Bool
  /-- STATUS.DONE (R28). -/
  done : Bool
  /-- STATUS.OVR (R28). -/
  ovr : Bool
  /-- STATUS.ERRCODE (R28, R143). STATUS.ERR is computed from it. -/
  errCode : ErrCode
  /-- `CUR`, the latched command word, read back at CMD (R29, R35). -/
  cur : Bus
  /-- MSG_LEN (R30). -/
  msgLen : Bus
  /-- DER_LEN bits [6:0] (R32). -/
  derLen : BitVec 7
  /-- The DER buffer, DERBUF[0..71] (R32). -/
  derBuf : Vector Byte 72
  /-- SIGN_DRAWS (R34). -/
  signDraws : Bus
  /-- `ENG_STATE` (R35). -/
  eng : EngState
  /-- `ATTEMPTS`, the draws the running SIGN has made (R35). -/
  attempts : Nat
  /-- `SNAP`, the running SIGN's operand values (R35). -/
  snap : Snap
  /-- `ENT_REQ` (R36). -/
  entReq : Bool
  /-- The draw k that was delivered and that the engine has not evaluated yet (R66 step 3, R126 step 2; log entry 8). -/
  draw : Option Word
  /-- The `RST` input is asserted (R166, R185; log entry 11). -/
  rst : Bool
  /-- The open parameters (R6). -/
  cfg : Config
  /-- The model's own: the agents' steps still to come, first to last (log entry 1). -/
  agenda : List Event
  /-- The model's own: the bus response to the last host access (log entry 4). -/
  resp : Response
  /-- The model's own: how many free values the platform has supplied (log entry 5). -/
  freeCount : Nat
  deriving DecidableEq, Repr

/-- Why a step stops with a fault. -/
inductive Fault where
  /-- Raised by SIGN's attempt when `PScalar(k, G)` of an accepted nonce k is the point at infinity, which has no x
  coordinate. R129 derives that this cannot happen. Safe: the spec gives no effect there, and the model stops (log entry 9). -/
  | nonceAtInfinity
  deriving DecidableEq, Repr

/-- Why a step is refused. -/
inductive Refusal where
  /-- Raised by an arm of `exec` whose command has no meaning in the model. No arm does. Safe. -/
  | notModelled (mnemonic : String)
  deriving DecidableEq, Repr

/-- What one step ends in. -/
abbrev Out := Host.Outcome State Fault Refusal

/-- The state after a hardware or soft reset: every element at the value of R39. `SNAP` is unspecified there and never
read before it is written; the model takes 0, as 93_implementation_defined.md I6 allows (log entry 10). -/
def State.reset : State where
  w := Vector.replicate 16 0#256
  valid := 0#16
  pinf := 0#8
  ie := false
  done := false
  ovr := false
  errCode := .none
  cur := 0#32
  msgLen := 0#32
  derLen := 0#7
  derBuf := Vector.replicate 72 0#8
  signDraws := 0#32
  eng := .idle
  attempts := 0
  snap := ⟨0#256, 0#256⟩
  entReq := false
  draw := none
  rst := false
  cfg := Config.default
  agenda := []
  resp := .quiet
  freeCount := 0

end Sys2Proof.Machine
end

