-- ==== Sys2Proof/Machine/Ops.lean ====
section
/-! DEFINITION. The named operations over the state: reading and writing the register file (R22 to R25), the DER result
(R138), issue (R86), commit and completion (R93, R95), raising an error and acknowledging it (R94, R148, R150), and
reset (R39). -/

namespace Sys2Proof.Machine

/-- `v` with bit `i` set. -/
def setBit {n : Nat} (v : BitVec n) (i : Nat) : BitVec n := v ||| (1#n <<< i)

/-- `v` with bit `i` clear. -/
def clearBit {n : Nat} (v : BitVec n) (i : Nat) : BitVec n := v &&& ~~~(1#n <<< i)

/-- `v` with bit `i` set or cleared. -/
def putBit {n : Nat} (v : BitVec n) (i : Nat) (b : Bool) : BitVec n := if b then setBit v i else clearBit v i

/-- The W register that holds Pj's X coordinate, W[2j] (R24). -/
def xReg (j : PIdx) : WIdx := ⟨2 * j.val, by omega⟩

/-- The W register that holds Pj's Y coordinate, W[2j+1] (R24). -/
def yReg (j : PIdx) : WIdx := ⟨2 * j.val + 1, by omega⟩

/-- The point register whose pair holds Wi, P[i div 2] (R25). -/
def pairOf (i : WIdx) : PIdx := ⟨i.val / 2, by omega⟩

/-- `W[i]` (R22). -/
def State.wReg (s : State) (i : WIdx) : Word := s.w[i]

/-- `VALID[i]` (R23). -/
def State.isValid (s : State) (i : WIdx) : Bool := s.valid.getLsbD i.val

/-- `PINF[j]` (R24). -/
def State.isInf (s : State) (j : PIdx) : Bool := s.pinf.getLsbD j.val

/-- `Pt(j)` (R24). -/
def State.point (s : State) (j : PIdx) : Point :=
  if s.isInf j then .inf else .fin (s.wReg (xReg j)).toNat (s.wReg (yReg j)).toNat

/-- Whether Pt(j) is readable (R24). -/
def State.ptReadable (s : State) (j : PIdx) : Bool :=
  s.isInf j || (s.isValid (xReg j) && s.isValid (yReg j))

/-- A scalar write to Wi: the value, VALID[i] set, and the infinity bit of its pair cleared (R25, R50, R93). -/
def State.putW (s : State) (i : WIdx) (v : Word) : State :=
  { s with w := s.w.set i v, valid := setBit s.valid i.val, pinf := clearBit s.pinf (pairOf i).val }

/-- What a point result puts in the pair of a point register: X, Y and the infinity bit (R25). -/
def pairValue : Point → Word × Word × Bool
  | .inf => (0#256, 0#256, true)
  | .fin x y => (BitVec.ofNat 256 x, BitVec.ofNat 256 y, false)

/-- A point write to Pj (R25). -/
def State.putPt (s : State) (j : PIdx) (q : Point) : State :=
  { s with
    w := (s.w.set (xReg j) (pairValue q).1).set (yReg j) (pairValue q).2.1
    valid := setBit (setBit s.valid (xReg j).val) (yReg j).val
    pinf := putBit s.pinf j.val (pairValue q).2.2 }

/-- Writing a DER result: the bytes, zeros after them, and the length (R138). -/
def State.putDer (s : State) (bytes : List Byte) : State :=
  { s with
    derBuf := Vector.ofFn fun b => bytes.getD b.val 0#8
    derLen := BitVec.ofNat 7 bytes.length }

/-- SIGN_DRAWS takes the number of draws of the SIGN that ends (R34). -/
def State.putDraws (s : State) (draws : Nat) : State :=
  { s with signDraws := BitVec.ofNat 32 draws }

/-- Completion of a command (R95). -/
def State.complete (s : State) (code : ErrCode) : State :=
  { s with eng := .idle, done := true, errCode := code, entReq := false }

/-- Taking an error: `raise Err(code)` ends the command in this step, and nothing but its completion happens (R94, R148). -/
def State.raise (s : State) (code : ErrCode) : State := s.complete code

/-- `raise Err(code)` of a SIGN, which also writes SIGN_DRAWS (R94). -/
def State.raiseSign (s : State) (code : ErrCode) (draws : Nat) : State := (s.putDraws draws).raise code

/-- The return from an error or a completion: the host acknowledges, and DONE is cleared. ERRCODE keeps its value until
the next issue (R150). -/
def State.acknowledge (s : State) : State := { s with done := false }

/-- Issue of the command word v (R86). -/
def State.issue (s : State) (v : Bus) : State :=
  { s with cur := v, eng := .run, done := false, errCode := .none, attempts := 0 }

/-- `EntropyDraw()`'s first step: request one value and wait for it (R66). -/
def State.requestDraw (s : State) : State := { s with entReq := true, eng := .waitEntropy }

/-- Reset (R39, R165): every element of the block's state takes its reset value. What lies outside the block stays: the
parameters, the level of the `RST` input, the agents' coming steps, the bus response and the free values used. -/
def State.resetBlock (s : State) : State :=
  { State.reset with
    cfg := s.cfg, rst := s.rst, agenda := s.agenda, resp := s.resp, freeCount := s.freeCount }

end Sys2Proof.Machine
end

