-- ==== Sys2Proof/Machine/Flags.lean ====
section
/-! DEFINITION. The status and control words and the interrupt output, computed from the state (R27, R28, R37, R143). -/

namespace Sys2Proof.Machine

/-- The number of an error code (R143). -/
def ErrCode.code : ErrCode → Byte
  | .none => 0x00#8
  | .illegalCmd => 0x01#8
  | .inputError => 0x02#8
  | .keyFormat => 0x03#8
  | .arithDomain => 0x04#8
  | .precondition => 0x05#8
  | .retryLimit => 0x06#8

/-- STATUS.BUSY: 1 exactly when ENG_STATE is not IDLE (R28, R35). -/
def State.busy (s : State) : Bool := s.eng != .idle

/-- STATUS.ERR: 1 exactly when ERRCODE is not 0 (R28). -/
def State.err (s : State) : Bool := s.errCode.code != 0x00#8

/-- The output `IRQ = CTRL.IE AND STATUS.DONE` (R37, R152). -/
def State.irq (s : State) : Bool := s.ie && s.done

/-- STATUS as read (R28). -/
def State.statusWord (s : State) : Bus :=
  0#16 ++ s.errCode.code ++ 0#4 ++ BitVec.ofBool s.ovr ++ BitVec.ofBool s.err ++ BitVec.ofBool s.done ++ BitVec.ofBool s.busy

/-- CTRL as read: IE in bit 0, SRST reads 0 (R27). -/
def State.ctrlWord (s : State) : Bus := 0#31 ++ BitVec.ofBool s.ie

end Sys2Proof.Machine
end

