-- ==== Sys2Proof/Machine/Bus.lean ====
section
/-! DEFINITION. The host's accesses to the MMIO window (20_memory.md): the offset map, what each location reads as, what
a write to it does, and the bus error. -/

namespace Sys2Proof.Machine

/-- The locations of the window (R46). -/
inductive Loc where
  | ctrl
  | status
  | cmd
  | msgLen
  | wValid
  | pinf
  | derLen
  | signDraws
  | wWord (i : WIdx) (j : Lane)
  | derWord (l : DerLane)
  | reserved
  deriving DecidableEq, Repr

/-- The location at an aligned offset of the window (R46). -/
def locAt (off : Nat) : Loc :=
  if off = 0x000 then .ctrl
  else if off = 0x004 then .status
  else if off = 0x008 then .cmd
  else if off = 0x00C then .msgLen
  else if off = 0x010 then .wValid
  else if off = 0x014 then .pinf
  else if off = 0x018 then .derLen
  else if off = 0x01C then .signDraws
  else if 0x100 ≤ off ∧ off < 0x300 then
    .wWord (Fin.ofNat 16 ((off - 0x100) / 32)) (Fin.ofNat 8 ((off - 0x100) / 4 % 8))
  else if 0x300 ≤ off ∧ off < 0x348 then .derWord (Fin.ofNat 18 ((off - 0x300) / 4))
  else .reserved

/-- Word j of a 256-bit value, bits [32j+31:32j] (R50). -/
def laneOf (v : Word) (j : Lane) : Bus := v.extractLsb' (32 * j.val) 32

/-- A 256-bit value with word j replaced (R50). -/
def setLane (v : Word) (j : Lane) (x : Bus) : Word :=
  (v &&& ~~~((0xFFFFFFFF#256) <<< (32 * j.val))) ||| (x.setWidth 256 <<< (32 * j.val))

/-- Byte b of the DER buffer. -/
def State.derByte (s : State) (b : Nat) : Byte := s.derBuf.toList.getD b 0#8

/-- What a location reads as (R26 to R32, R34, R49 to R52). No read has a side effect (R56). -/
def State.readLoc (s : State) : Loc → Bus
  | .ctrl => s.ctrlWord
  | .status => s.statusWord
  | .cmd => s.cur
  | .msgLen => s.msgLen
  | .wValid => s.valid.setWidth 32
  | .pinf => s.pinf.setWidth 32
  | .derLen => s.derLen.setWidth 32
  | .signDraws => s.signDraws
  | .wWord i j => laneOf (s.wReg i) j
  | .derWord l =>
    s.derByte (4 * l.val + 3) ++ s.derByte (4 * l.val + 2) ++ s.derByte (4 * l.val + 1) ++ s.derByte (4 * l.val)
  | .reserved => 0#32

/-- A write that R57 drops while BUSY = 1: then it only sets OVR. -/
def State.unlessBusy (s : State) (performed : State) : State :=
  if s.busy then { s with ovr := true } else performed

/-- A write to CTRL: SRST resets the block and nothing of the written value is stored; else IE is stored (R27, R167). -/
def State.writeCtrl (s : State) (v : Bus) : State :=
  if v.getLsbD 1 then s.resetBlock else { s with ie := v.getLsbD 0 }

/-- A write to STATUS: 1 in bit 1 clears DONE, 1 in bit 3 clears OVR (R28, R150). -/
def State.writeStatus (s : State) (v : Bus) : State :=
  let t := if v.getLsbD 1 then s.acknowledge else s
  if v.getLsbD 3 then { t with ovr := false } else t

/-- A write to W_VALID: each 1 in bits [15:0] clears VALID[i] and zeroes W[i]; PINF stays (R25, R31). -/
def State.zeroise (s : State) (v : Bus) : State :=
  { s with
    w := Vector.ofFn fun i : WIdx => if v.getLsbD i.val then 0#256 else s.wReg i
    valid := s.valid &&& ~~~(v.setWidth 16) }

/-- A write of word j of Wi (R50). -/
def State.writeLane (s : State) (i : WIdx) (j : Lane) (v : Bus) : State :=
  s.putW i (setLane (s.wReg i) j v)

/-- What a 32-bit write of v to a location does (R25 to R31, R49, R50, R57). -/
def State.writeLoc (s : State) (v : Bus) : Loc → State
  | .ctrl => s.writeCtrl v
  | .status => s.writeStatus v
  | .cmd => s.unlessBusy (s.issue v)
  | .msgLen => s.unlessBusy { s with msgLen := v }
  | .wValid => s.unlessBusy (s.zeroise v)
  | .pinf => s.unlessBusy { s with pinf := v.setWidth 8 }
  | .derLen => s
  | .signDraws => s
  | .wWord i j => s.unlessBusy (s.writeLane i j v)
  | .derWord _ => s
  | .reserved => s

/-- The platform routes an access to the window when its address lies in the 4096 bytes from BASE (R46, R65). -/
def State.routed (s : State) (a : Access) : Bool :=
  decide (s.cfg.base ≤ a.addr ∧ a.addr < s.cfg.base + 4096)

/-- The offset of an address in the window. -/
def State.offset (s : State) (a : Access) : Nat := a.addr - s.cfg.base

/-- The accesses that R48 allows: 32 bits at a multiple of 4. -/
def State.lawful (s : State) (a : Access) : Bool :=
  decide (a.size = 4 ∧ s.offset a % 4 = 0)

/-- A lawful access performed and answered. -/
def State.performAccess (s : State) (a : Access) : State :=
  match a with
  | .read _ _ => { s with resp := .data (s.readLoc (locAt (s.offset a))) }
  | .write _ _ v => { s.writeLoc v (locAt (s.offset a)) with resp := .done }

/-- One host access (R13, R46, R48, R68). While `RST` is asserted the block answers none, and the platform's answer is a
free value (R166, log entry 5). -/
def State.hostAccess (s : State) (a : Access) : State :=
  if s.routed a then
    if s.rst then { s with resp := Config.answerDuringReset s.freeCount a, freeCount := s.freeCount + 1 }
    else if s.lawful a then s.performAccess a
    else { s with resp := .busError }
  else { s with resp := .notRouted }

end Sys2Proof.Machine
end

