-- ==== Sys2Proof/Machine/Operands.lean ====
section
/-! DEFINITION. The operand forms of the commands (R80) with the operand check of R88, and the ways a command ends. -/

namespace Sys2Proof.Machine

/-- A W operand: Wi needs VALID[i] = 1, else the command ends with PRECONDITION (R88). -/
def withW (s : State) (i : WIdx) (use : Word → Out) : Out :=
  if s.isValid i then use (s.wReg i) else .next (s.raise .precondition)

/-- A point operand: Pt(j) needs to be readable, else the command ends with PRECONDITION (R24, R88). -/
def withPt (s : State) (j : PIdx) (use : Point → Out) : Out :=
  if s.ptReadable j then use (s.point j) else .next (s.raise .precondition)

/-- A number as the content of a W register. -/
def wordOf (v : Nat) : Word := BitVec.ofNat 256 v

/-- Commit of one scalar result, and completion (R93, R95). -/
def commitW (s : State) (rd : WIdx) (v : Nat) : Out := .next ((s.putW rd (wordOf v)).complete .none)

/-- Commit of a point result, and completion (R25, R93, R95). -/
def commitPt (s : State) (rd : PIdx) (q : Point) : Out := .next ((s.putPt rd q).complete .none)

/-- Commit of a point function's result, or its ARITH_DOMAIN (R94, R112, R113). -/
def commitPtOrRaise (s : State) (rd : PIdx) : Option Point → Out
  | some q => commitPt s rd q
  | none => .next (s.raise .arithDomain)

end Sys2Proof.Machine
end

