-- ==== Sys2Proof/Machine/DerUnit.lean ====
section
/-! DEFINITION. The DER encoder command (44_der.md). -/

namespace Sys2Proof.Machine

/-- DER: encode W[ra] as r and W[rb] as s into the DER buffer (R137, R138). -/
def execDer (wr ws : WIdx) (s : State) : Out :=
  withW s wr fun r => withW s ws fun sv => .next ((s.putDer (derSig r sv)).complete .none)

end Sys2Proof.Machine
end

