-- ==== Sys2Proof/Machine/Field.lean ====
section
/-! DEFINITION. The field units: FADD, FSUB, FMUL and FINV (41_field.md). Operands are whole 256-bit integers, every
intermediate value is exact, and only the result is reduced (R104). -/

namespace Sys2Proof.Machine

/-- A field command of two sources: check ra, then rb, compute, commit. -/
def fieldCommand (m : Modulus) (rd ra rb : WIdx) (f : Int → Int → Int) (s : State) : Out :=
  withW s ra fun a => withW s rb fun b => commitW s rd (residue (f a.toNat b.toNat) (modulusValue m))

/-- FADD: `W[rd] <- (a + b) mod M` (R100). -/
def execFadd (m : Modulus) (rd ra rb : WIdx) (s : State) : Out := fieldCommand m rd ra rb (fun a b => a + b) s

/-- FSUB: `W[rd] <- (a - b) mod M`, the non-negative residue (R101). -/
def execFsub (m : Modulus) (rd ra rb : WIdx) (s : State) : Out := fieldCommand m rd ra rb (fun a b => a - b) s

/-- FMUL: `W[rd] <- (a * b) mod M`, from the exact product (R102). -/
def execFmul (m : Modulus) (rd ra rb : WIdx) (s : State) : Out := fieldCommand m rd ra rb (fun a b => a * b) s

/-- FINV: `W[rd] <- inv(a, M)`, or ARITH_DOMAIN when a and M are not coprime (R103). -/
def execFinv (m : Modulus) (rd ra : WIdx) (s : State) : Out :=
  withW s ra fun a =>
    if Nat.gcd (a.toNat % modulusValue m) (modulusValue m) = 1 then commitW s rd (inv a.toNat (modulusValue m))
    else .next (s.raise .arithDomain)

end Sys2Proof.Machine
end

