-- ==== Sys2Proof/Machine/PointUnits.lean ====
section
/-! DEFINITION. The point units: PDBL, PADD, PMUL, PMUL.G and PCHK (42_point.md). No command but PCHK asks whether a
point lies on the curve (R115). -/

namespace Sys2Proof.Machine

/-- PDBL: `Pt(rd) <- PDouble(Pt(ra))` (R120). -/
def execPdbl (rd ra : PIdx) (s : State) : Out :=
  withPt s ra fun p => commitPt s rd (pDouble p)

/-- PADD: `Pt(rd) <- PAdd(Pt(ra), Pt(rb))`, which may raise ARITH_DOMAIN (R121). -/
def execPadd (rd ra rb : PIdx) (s : State) : Out :=
  withPt s ra fun p => withPt s rb fun q => commitPtOrRaise s rd (pAdd p q)

/-- PMUL: the scalar is checked before the point; `Pt(rd) <- PScalar(W[ra], Pt(rb))` (R122). The scalar is the full 256-bit
value (R119). -/
def execPmul (rd : PIdx) (ra : WIdx) (rb : PIdx) (s : State) : Out :=
  withW s ra fun k => withPt s rb fun p => commitPtOrRaise s rd (pScalar k.toNat p)

/-- PMUL.G: `Pt(rd) <- PScalar(W[ra], G)`; the constant G is always readable (R74, R88, R122). -/
def execPmulG (rd : PIdx) (ra : WIdx) (s : State) : Out :=
  withW s ra fun k => commitPtOrRaise s rd (pScalar k.toNat basePoint)

/-- PCHK: `W[rd] <- OnCurve(Pt(ra)) ? 1 : 0` (R123). -/
def execPchk (rd : WIdx) (ra : PIdx) (s : State) : Out :=
  withPt s ra fun p => commitW s rd (if onCurve p then 1 else 0)

end Sys2Proof.Machine
end

