-- ==== Sys2Proof/Machine/Sequencing.lean ====
section
/-! DEFINITION. NOP (40_command_cycle.md). -/

namespace Sys2Proof.Machine

/-- NOP: no effect but its completion (R99). -/
def execNop (s : State) : Out := .next (s.complete .none)

end Sys2Proof.Machine
end

