-- ==== Sys2Proof/Machine/Sign.lean ====
section
/-! DEFINITION. The sign engine (43_sign.md). SIGN is a sequence of engine steps: the check step, then one step per
delivered draw (R126). The state tells them apart: an attempt has a delivered draw that is not evaluated yet. -/

namespace Sys2Proof.Machine

/-- SIGN's check step (R125, R126): the checks in their order, none of which draws entropy; then the snapshot and the
first request. -/
def signCheck (we wd : WIdx) (s : State) : State :=
  if s.msgLen = 0#32 then s.raiseSign .inputError 0
  else if s.isValid wd = false then s.raiseSign .keyFormat 0
  else if s.isValid we = false then s.raiseSign .precondition 0
  else { s with snap := ⟨s.wReg we, s.wReg wd⟩, attempts := 0 }.requestDraw

/-- What one draw comes to (R125, R128). -/
inductive SignResult where
  /-- The draw is rejected. -/
  | reject
  /-- The draw gives the signature (r, s). -/
  | signature (r sv : Nat)
  /-- `PScalar` raises ARITH_DOMAIN. R130 derives that it cannot. -/
  | domainError
  /-- R is the point at infinity, which has no x. R129 derives that it cannot be. -/
  | noX
  deriving DecidableEq, Repr

/-- One draw k evaluated for the digest e and the key d (R125 steps 3b to 3d, R128). e and d are used as they are (R131). -/
def signDraw (k e d : Nat) : SignResult :=
  if k = 0 ∨ groupOrder ≤ k then .reject
  else
    match pScalar k basePoint with
    | none => .domainError
    | some .inf => .noX
    | some (.fin x _) =>
      let r := residue x groupOrder
      if r = 0 then .reject
      else
        let sv := residue ((inv k groupOrder : Int) * (e + d * r)) groupOrder
        if sv = 0 then .reject else .signature r sv

/-- A rejected draw: RETRY_LIMIT at the cap, else the next request (R125, R127). -/
def signReject (s : State) : State :=
  if s.attempts = s.cfg.signMaxAttempts then s.raiseSign .retryLimit s.attempts else s.requestDraw

/-- SIGN's commit: r, s, their DER encoding and SIGN_DRAWS, and completion (R93, R125, R132). -/
def signCommit (wr ws : WIdx) (r sv : Nat) (s : State) : State :=
  (((s.putW wr (wordOf r)).putW ws (wordOf sv)).putDer (derSig (wordOf r) (wordOf sv))).putDraws s.attempts |>.complete .none

/-- The engine takes the delivered draw and counts it (R126 step 2). -/
def State.takeDraw (s : State) : State := { s with draw := none, attempts := s.attempts + 1 }

/-- SIGN's attempt step on the draw k (R126 step 2). -/
def signAttempt (wr ws : WIdx) (k : Word) (s : State) : Out :=
  match signDraw k.toNat s.snap.e.toNat s.snap.d.toNat with
  | .reject => .next (signReject s.takeDraw)
  | .signature r sv => .next (signCommit wr ws r sv s.takeDraw)
  | .domainError => .next (s.takeDraw.raiseSign .arithDomain s.takeDraw.attempts)
  | .noX => .fault .nonceAtInfinity

/-- SIGN: one engine step of it (R125, R126). -/
def execSign (wr ws we wd : WIdx) (s : State) : Out :=
  match s.draw with
  | none => .next (signCheck we wd s)
  | some k => signAttempt wr ws k s

end Sys2Proof.Machine
end

