-- ==== Sys2Proof/Machine/Engine.lean ====
section
/-! DEFINITION. The steps of the agents (R13, R17): the engine's turn, the entropy agent's delivery, the reset input, and
the host's access. -/

namespace Sys2Proof.Machine

/-- The engine's step on the latched word: decode it, and end an illegal one with ILLEGAL_CMD (R77, R87). -/
def runWord (s : State) : Out :=
  match decode s.cur with
  | .row i => exec i s
  | .illegal => .next (s.raise .illegalCmd)

/-- The engine's turn: it has a step only in RUN (R96), and none while `RST` is asserted (R166). -/
def engineTurn (s : State) : Out :=
  if s.rst then .next s
  else
    match s.eng with
    | .run => runWord s
    | .idle => .next s
    | .waitEntropy => .next s

/-- The entropy agent delivers 32 bytes (R66). A delivery that finds no request is discarded (R67, R167; in RUN or IDLE without a
withdrawal before it: log entry 24), and so is one that arrives while `RST` is asserted (R166). DESIGN CHOICE (log entry 26): a
delivery carries nothing that tells which request it answers, so in WAIT_ENTROPY any delivery is the pending request's draw, also
a late answer to a request that was withdrawn before this SIGN. -/
def State.deliver (s : State) (b : Vector Byte 32) : State :=
  if s.rst then s
  else
    match s.eng with
    | .waitEntropy => { s with draw := some (drawOf b), entReq := false, eng := .run }
    | .idle => s
    | .run => s

/-- The platform asserts `RST`: the block is reset, and does nothing until the release (R165, R166). -/
def State.assertRst (s : State) : State := { s.resetBlock with rst := true }

/-- The platform releases `RST` (R166). -/
def State.releaseRst (s : State) : State := { s with rst := false }

/-- One step of one agent. -/
def perform (e : Event) (s : State) : Out :=
  match e with
  | .host a => .next (s.hostAccess a)
  | .engine => engineTurn s
  | .entropy b => .next (s.deliver b)
  | .assertRst => .next s.assertRst
  | .releaseRst => .next s.releaseRst

end Sys2Proof.Machine
end

