-- ==== Sys2Proof/Machine/Step.lean ====
section
/-! DEFINITION. One step of the machine: the next agent's step, as the agenda orders them. The block fetches no
instruction (R33): its current command is the word in CMD, which the engine runs when its turn comes. -/

namespace Sys2Proof.Machine

/-- One step (log entries 1 and 2): the first step on the agenda; with an empty agenda, the engine's own turn. -/
def step (s : State) : Host.Outcome State Fault Refusal :=
  match s.agenda with
  | [] => engineTurn s
  | e :: rest => perform e { s with agenda := rest }

/-- `s` with the word latched in CMD as an issue latches it (R86), nothing held over from an earlier SIGN, `RST` released,
and the engine's turn next, so that the next step runs exactly this command (log entry 3). -/
def State.withFetchWord (s : State) (nbits w : Nat) : State :=
  { s.issue (BitVec.ofNat 32 (w % 2 ^ nbits)) with
    entReq := false, draw := none, rst := false, agenda := .engine :: s.agenda }

end Sys2Proof.Machine
end

