-- ==== Sys2Proof/Machine/HostForms.lean ====
section
/-! DEFINITION. The host's written forms of R83 and R84: the pseudo-instructions and the bus accesses a program is written in.
`wait` is the host's own polling loop over `rd32 0x004`; the accesses it makes are `poll`. -/

namespace Sys2Proof.Machine

/-- `PUBGEN Pd, Wa` is `PMUL.G Pd, Wa` (R83). -/
def pubgen (rd : PIdx) (ra : WIdx) : Instr := .pmulG rd ra

/-- `FSQR.m Wd, Wa` is `FMUL.m Wd, Wa, Wa` (R83). -/
def fsqr (m : Modulus) (rd ra : WIdx) : Instr := .fmul m rd ra ra

/-- `wr32 OFF, v` (R84). -/
def wr32 (c : Config) (off : Nat) (v : Bus) : Event := .host (.write (c.base + off) 4 v)

/-- `rd32 OFF` (R84). -/
def rd32 (c : Config) (off : Nat) : Event := .host (.read (c.base + off) 4)

/-- The offset of word j of Wi (R46, R50). -/
def laneOffset (i : WIdx) (j : Lane) : Nat := 0x100 + 32 * i.val + 4 * j.val

/-- `wrW i, v`: eight word writes (R84). -/
def wrW (c : Config) (i : WIdx) (v : Word) : List Event :=
  (List.finRange 8).map fun j => wr32 c (laneOffset i j) (laneOf v j)

/-- `rdW i`: eight word reads (R84). -/
def rdW (c : Config) (i : WIdx) : List Event := (List.finRange 8).map fun j => rd32 c (laneOffset i j)

/-- Eight words assembled least significant first (R84). -/
def assemble (x : Vector Bus 8) : Word :=
  x[7] ++ x[6] ++ x[5] ++ x[4] ++ x[3] ++ x[2] ++ x[1] ++ x[0]

/-- `cmd X` (R84). -/
def cmd (c : Config) (i : Instr) : Event := wr32 c 0x008 (encode i)

/-- One poll of `wait` (R84). -/
def poll (c : Config) : Event := rd32 c 0x004

end Sys2Proof.Machine
end

