-- ==== Sys2Proof/Safety.lean ====
section
/-! DEFINITION. What a sound state of the block is, in the terms the claims use: the invariant that every step keeps. -/

namespace Sys2Proof.Machine

/-- The operands We and Wd of the SIGN latched in CMD, none when the word is no SIGN. -/
def State.signOperands (s : State) : Option (WIdx × WIdx) :=
  match decode s.cur with
  | .row (.sign _ _ we wd) => some (we, wd)
  | _ => none

/-- A SIGN is between its check step and its completion: it waits for a draw, or holds one that is not evaluated yet. -/
abbrev State.signing (s : State) : Prop := s.eng = .waitEntropy ∨ s.draw.isSome = true

/-- ENT_REQ is 1 exactly in WAIT_ENTROPY (R36), a delivered draw is held only in RUN (R66), and while a command runs
nothing is done and no error stands (R86, R151). -/
abbrev State.EngineOk (s : State) : Prop :=
  (s.entReq = true ↔ s.eng = .waitEntropy) ∧
  (s.draw.isSome = true → s.eng = .run) ∧
  (s.eng ≠ .idle → s.done = false ∧ s.errCode = .none)

/-- The snapshot a running SIGN works with is what its operand registers still hold, and the checks it passed still hold:
no operand is stale (R63, R125). -/
abbrev State.SnapOk (s : State) : Prop :=
  s.signOperands.any (fun o => decide (s.msgLen ≠ 0#32 ∧ s.isValid o.1 = true ∧ s.isValid o.2 = true ∧
    s.snap = ⟨s.wReg o.1, s.wReg o.2⟩)) = true

/-- A running SIGN has draws left (R127) and a sound snapshot. -/
abbrev State.SignOk (s : State) : Prop :=
  s.attempts ≤ s.cfg.signMaxAttempts ∧
  (s.signing → s.attempts < s.cfg.signMaxAttempts ∧ s.SnapOk)

/-- DER_LEN is 0 or 8 to 72, and the buffer is zero past it (R32, R138); SIGN_DRAWS is at most the cap (R34). -/
abbrev State.DerOk (s : State) : Prop :=
  (s.derLen = 0#7 ∨ (8 ≤ s.derLen.toNat ∧ s.derLen.toNat ≤ 72)) ∧
  (∀ b : Fin 72, s.derLen.toNat ≤ b.val → s.derBuf[b] = 0#8) ∧
  s.signDraws.toNat ≤ s.cfg.signMaxAttempts

/-- While `RST` is asserted the block holds its reset values (R166). -/
abbrev State.ResetHeld (s : State) : Prop := s.rst = true → s = s.resetBlock

/-- The invariant. -/
abbrev State.Inv (s : State) : Prop :=
  s.cfg.Ok ∧ s.EngineOk ∧ s.SignOk ∧ s.DerOk ∧ s.ResetHeld

end Sys2Proof.Machine
end

