-- ==== Sys2Proof/Certificates/Slice0/Obligations.lean ====
section
/-! DEFINITION. The statements about the block, from the numbered rules of spec/. The states they name are written out field
by field in the helpers of `Sys2Proof.Claim`, so that a field that a statement does not name is unchanged. -/

namespace Sys2Proof.Claim

open Sys2Proof.Machine

/-- `s` with a command completed with `code` (R95): ENG_STATE idle, DONE set, ERRCODE, ENT_REQ 0. -/
def finished (s : State) (code : ErrCode) : State :=
  { s with eng := .idle, done := true, errCode := code, entReq := false }

/-- `s` with the scalar v in Wi: VALID[i] is set and the infinity bit of its pair is cleared (R25, R93). -/
def withScalar (s : State) (i : WIdx) (v : Nat) : State :=
  { s with
    w := s.w.set i (BitVec.ofNat 256 v)
    valid := s.valid ||| (1#16 <<< i.val)
    pinf := s.pinf &&& ~~~(1#8 <<< (i.val / 2)) }

/-- `s` with the point q in Pj (R25). -/
def withPoint (s : State) (j : PIdx) : Point → State
  | .inf =>
    { s with
      w := (s.w.set (2 * j.val) 0#256).set (2 * j.val + 1) 0#256
      valid := s.valid ||| (3#16 <<< (2 * j.val))
      pinf := s.pinf ||| (1#8 <<< j.val) }
  | .fin x y =>
    { s with
      w := (s.w.set (2 * j.val) (BitVec.ofNat 256 x)).set (2 * j.val + 1) (BitVec.ofNat 256 y)
      valid := s.valid ||| (3#16 <<< (2 * j.val))
      pinf := s.pinf &&& ~~~(1#8 <<< j.val) }

/-- `s` with the bytes of an encoding in the DER buffer, zeros after them, and their number in DER_LEN (R138). -/
def withDer (s : State) (bytes : List Byte) : State :=
  { s with
    derBuf := Vector.ofFn fun b => if b.val < bytes.length then bytes.getD b.val 0#8 else 0#8
    derLen := BitVec.ofNat 7 bytes.length }

/-- `s` after the issue of the word c (R86). -/
def issued (s : State) (c : Bus) : State :=
  { s with cur := c, eng := .run, done := false, errCode := .none, attempts := 0 }

/-- The reset values of R39 in the block whose surroundings are those of `s`. -/
def atReset (s : State) : State :=
  { State.reset with cfg := s.cfg, rst := s.rst, agenda := s.agenda, resp := s.resp, freeCount := s.freeCount }

/-- The command is SIGN. -/
def isSign : Instr → Bool
  | .sign .. => true
  | _ => false

/-- The command is DER. -/
def isDer : Instr → Bool
  | .der .. => true
  | _ => false

/-- The two W registers of a point register (R24). -/
def pair (j : PIdx) : List WIdx := [⟨2 * j.val, by omega⟩, ⟨2 * j.val + 1, by omega⟩]

/-- The W registers a command's rule lists as destinations. -/
def dests : Instr → List WIdx
  | .nop => []
  | .fadd _ rd _ _ => [rd]
  | .fsub _ rd _ _ => [rd]
  | .fmul _ rd _ _ => [rd]
  | .finv _ rd _ => [rd]
  | .pdbl rd _ => pair rd
  | .padd rd _ _ => pair rd
  | .pmul rd _ _ => pair rd
  | .pmulG rd _ => pair rd
  | .pchk rd _ => [rd]
  | .sign wr ws _ _ => [wr, ws]
  | .der _ _ => []

/-- The W operands of a command. -/
def scalarSources : Instr → List WIdx
  | .nop => []
  | .fadd _ _ ra rb => [ra, rb]
  | .fsub _ _ ra rb => [ra, rb]
  | .fmul _ _ ra rb => [ra, rb]
  | .finv _ _ ra => [ra]
  | .pdbl _ _ => []
  | .padd _ _ _ => []
  | .pmul _ ra _ => [ra]
  | .pmulG _ ra => [ra]
  | .pchk _ _ => []
  | .sign _ _ we wd => [we, wd]
  | .der wr ws => [wr, ws]

/-- The point operands of a command. -/
def pointSources : Instr → List PIdx
  | .pdbl _ ra => [ra]
  | .padd _ ra rb => [ra, rb]
  | .pmul _ _ rb => [rb]
  | .pchk _ ra => [ra]
  | _ => []

/-- The codes a decoded command can complete with (R145, less ILLEGAL_CMD, which a decoded command never has). -/
def codes : Instr → List ErrCode
  | .nop => [.none]
  | .fadd .. => [.none, .precondition]
  | .fsub .. => [.none, .precondition]
  | .fmul .. => [.none, .precondition]
  | .finv .. => [.none, .precondition, .arithDomain]
  | .pdbl .. => [.none, .precondition]
  | .padd .. => [.none, .precondition, .arithDomain]
  | .pmul .. => [.none, .precondition]
  | .pmulG .. => [.none, .precondition]
  | .pchk .. => [.none, .precondition]
  | .sign .. => [.none, .inputError, .keyFormat, .precondition, .retryLimit]
  | .der .. => [.none, .precondition]

/-- A field that R75 marks "0" is nonzero (R77 (c)). For opcode 0x12 the two rows differ by gsel. -/
def unusedFieldSet (f : Fields) : Prop :=
  (f.opc = 0x00#8 ∧ (f.rd ≠ 0 ∨ f.ra ≠ 0 ∨ f.rb ≠ 0 ∨ f.rc ≠ 0 ∨ f.msel ≠ 0 ∨ f.gsel ≠ 0)) ∨
  ((f.opc = 0x01#8 ∨ f.opc = 0x02#8 ∨ f.opc = 0x03#8) ∧ (f.rc ≠ 0 ∨ f.gsel ≠ 0)) ∨
  (f.opc = 0x04#8 ∧ (f.rb ≠ 0 ∨ f.rc ≠ 0 ∨ f.gsel ≠ 0)) ∨
  (f.opc = 0x10#8 ∧ (f.rb ≠ 0 ∨ f.rc ≠ 0 ∨ f.msel ≠ 0 ∨ f.gsel ≠ 0)) ∨
  (f.opc = 0x11#8 ∧ (f.rc ≠ 0 ∨ f.msel ≠ 0 ∨ f.gsel ≠ 0)) ∨
  (f.opc = 0x12#8 ∧ (f.rc ≠ 0 ∨ f.msel ≠ 0 ∨ (f.gsel = 1 ∧ f.rb ≠ 0))) ∨
  (f.opc = 0x13#8 ∧ (f.rb ≠ 0 ∨ f.rc ≠ 0 ∨ f.msel ≠ 0 ∨ f.gsel ≠ 0)) ∨
  (f.opc = 0x20#8 ∧ (f.msel ≠ 0 ∨ f.gsel ≠ 0)) ∨
  (f.opc = 0x21#8 ∧ (f.rd ≠ 0 ∨ f.rc ≠ 0 ∨ f.msel ≠ 0 ∨ f.gsel ≠ 0))

/-- A point-index field has bit 3 set (R77 (d)). -/
def pointIndexTooHigh (f : Fields) : Prop :=
  (f.opc = 0x10#8 ∧ (f.rd.getLsbD 3 ∨ f.ra.getLsbD 3)) ∨
  (f.opc = 0x11#8 ∧ (f.rd.getLsbD 3 ∨ f.ra.getLsbD 3 ∨ f.rb.getLsbD 3)) ∨
  (f.opc = 0x12#8 ∧ (f.rd.getLsbD 3 ∨ (f.gsel = 0 ∧ f.rb.getLsbD 3))) ∨
  (f.opc = 0x13#8 ∧ f.ra.getLsbD 3)

/-- The five conditions of R77 that make a word illegal. -/
def illegalByRule (c : Bus) : Prop :=
  (fieldsOf c).opc ∉ [0x00#8, 0x01#8, 0x02#8, 0x03#8, 0x04#8, 0x10#8, 0x11#8, 0x12#8, 0x13#8, 0x20#8, 0x21#8] ∨
  c.extractLsb' 26 6 ≠ 0#6 ∨
  unusedFieldSet (fieldsOf c) ∨
  pointIndexTooHigh (fieldsOf c) ∨
  ((fieldsOf c).opc = 0x20#8 ∧ (fieldsOf c).rd = (fieldsOf c).rc)

/-- The two points lie on one curve `y^2 = x^3 + b'` mod p (R118); INF lies on every one. -/
def sameCurve : Point → Point → Prop
  | .fin x y, .fin x' y' =>
    ((y : ZMod fieldPrime) ^ 2 - (x : ZMod fieldPrime) ^ 3 = (y' : ZMod fieldPrime) ^ 2 - (x' : ZMod fieldPrime) ^ 3)
  | _, _ => True

/-- A DER reader of one INTEGER that is not negative, and the bytes after it (R141). -/
def readInteger (bs : List Byte) : Option (Nat × List Byte) :=
  match bs with
  | tag :: len :: first :: rest =>
    if tag = 0x02#8 ∧ len ≠ 0#8 ∧ len.toNat ≤ rest.length + 1 ∧ first < 0x80#8 then
      some (beValue ((first :: rest).take len.toNat), (first :: rest).drop len.toNat)
    else none
  | _ => none

/-- A DER reader of a SEQUENCE of two INTEGERs that is the whole string, with a short-form length (R141). -/
def readSignature (bs : List Byte) : Option (Nat × Nat) :=
  match bs with
  | tag :: len :: body =>
    if tag = 0x30#8 ∧ len < 0x80#8 ∧ len.toNat = body.length then
      match readInteger body with
      | some (r, rest) =>
        match readInteger rest with
        | some (s, []) => some (r, s)
        | _ => none
      | none => none
    else none
  | _ => none

/-- The agenda in which the entropy agent answers, and the engine takes its turn, once for each value of the list. -/
def rounds (bs : List (Vector Byte 32)) : List Event := bs.flatMap fun b => [.entropy b, .engine]

/-- The location keeps its offset's write out of a busy command (R57): CMD, MSG_LEN, PINF, W_VALID or a W word. -/
def droppedWhileBusy (off : Nat) : Prop :=
  off = 0x008 ∨ off = 0x00C ∨ off = 0x010 ∨ off = 0x014 ∨ (0x100 ≤ off ∧ off < 0x300)

/-- The read-only and the reserved offsets of the window (R46). -/
def ignoresWrites (off : Nat) : Prop :=
  off = 0x018 ∨ off = 0x01C ∨ (0x020 ≤ off ∧ off < 0x100) ∨ (0x300 ≤ off ∧ off < 0x1000)

end Sys2Proof.Claim

open Sys2Proof Sys2Proof.Machine Sys2Proof.Claim

/-! Encodings (30_encoding.md). -/

/-- R85: the worked encodings, both ways. -/
def Obligations.WorkedEncodingsAgree : Prop :=
  ∀ iw ∈ ([(.fadd .p 2 0 1, 0x00010201#32), (.fmul .n 3 3 3, 0x01033303#32), (.finv .p 1 0, 0x00000104#32),
      (.pdbl 1 0, 0x00000110#32), (.padd 2 1 0, 0x00001211#32), (.pmul 3 8 0, 0x00008312#32),
      (.pmulG 0 8, 0x02008012#32), (.pchk 9 0, 0x00000913#32), (.sign 2 3 0 1, 0x00310220#32),
      (.der 2 3, 0x00032021#32)] : List (Instr × Bus)),
    encode iw.1 = iw.2 ∧ decode iw.2 = .row iw.1

/-- R71, R75, R81: decoding the word of a well-formed command gives the command back, at every operand. -/
def Obligations.DecodeOfEncodeIsIdentity : Prop :=
  ∀ i : Instr, i.wellFormed = true → decode (encode i) = .row i

/-- R78, R81: a word that decodes to a command is that command's word, and the command is well formed. -/
def Obligations.EncodeOfDecodeIsIdentity : Prop :=
  ∀ (c : Bus) (i : Instr), decode c = .row i → encode i = c ∧ i.wellFormed = true

/-- R77: a word is illegal exactly under one of the conditions (a) to (e); an illegal word is accepted (BUSY is 1, CMD
reads it back) and the engine's next turn completes it with ILLEGAL_CMD, changing nothing else. -/
def Obligations.IllegalWordsExactlyByRule : Prop :=
  ∀ c : Bus,
    (decode c = .illegal ↔ illegalByRule c) ∧
    (illegalByRule c → ∀ s : State, s.eng = .idle → s.rst = false →
      (s.writeLoc c .cmd).busy = true ∧ (s.writeLoc c .cmd).readLoc .cmd = c ∧
      engineTurn (s.writeLoc c .cmd) = .next (finished (issued s c) .illegalCmd))

/-- R76: no two rows match the same word. -/
def Obligations.NoWordSpellsTwoRows : Prop :=
  rows.Pairwise fun a b => ∀ c : Bus, ¬ (a.spells c = true ∧ b.spells c = true)

/-! The command cycle (40_command_cycle.md). -/

/-- R87, R90: with the engine in RUN and its turn next, a step runs the decoded command, and the agenda moves past the
turn. The agenda is the model's, log entry 1; that with an empty agenda the step is the engine's turn is the model's
choice, log entry 2. -/
def Obligations.StepRunsTheDecodedCommand : Prop :=
  ∀ (s : State) (i : Instr), s.rst = false → s.eng = .run → decode s.cur = .row i →
    (s.agenda = [] → step s = exec i s) ∧
    (∀ rest, s.agenda = .engine :: rest → step s = exec i { s with agenda := rest })

/-- R86, R87: a host write to CMD while idle issues the word: it is latched, BUSY is 1, DONE and the error are cleared,
OVR keeps its value and IRQ falls; and the engine's next turn on the word of a well-formed command runs that command on
the registers of that moment. A write's response is held as log entry 4 says. -/
def Obligations.IssueLatchesTheWordAndItRunsNext : Prop :=
  ∀ s : State, s.rst = false → s.eng = .idle →
    (∀ v : Bus,
      s.hostAccess (.write (s.cfg.base + 0x008) 4 v) =
        { s with cur := v, eng := .run, done := false, errCode := .none, attempts := 0, resp := .done } ∧
      (s.hostAccess (.write (s.cfg.base + 0x008) 4 v)).irq = false ∧
      (s.hostAccess (.write (s.cfg.base + 0x008) 4 v)).busy = true) ∧
    (∀ i : Instr, i.wellFormed = true →
      engineTurn (s.hostAccess (.write (s.cfg.base + 0x008) 4 (encode i))) =
        exec i (s.hostAccess (.write (s.cfg.base + 0x008) 4 (encode i))))

/-- R99: NOP has no effect but its completion. -/
def Obligations.NopOnlyCompletes : Prop :=
  ∀ s : State, exec .nop s = .next (finished s .none)

/-- R90: every command other than SIGN completes at its engine step. -/
def Obligations.NonSignCommandsCompleteInOneStep : Prop :=
  ∀ (i : Instr) (s : State), isSign i = false →
    ∃ t, exec i s = .next t ∧ t.eng = .idle ∧ t.done = true ∧ t.entReq = false

/-- R93: what no command changes, what only its own destinations change, and which commands write the DER state and
SIGN_DRAWS. -/
def Obligations.CommandFrame : Prop :=
  ∀ (i : Instr) (s t : State), exec i s = .next t →
    (∀ k : WIdx, k ∉ dests i → t.w[k] = s.w[k] ∧ t.valid.getLsbD k.val = s.valid.getLsbD k.val) ∧
    (∀ j : PIdx, (∀ k ∈ dests i, k.val / 2 ≠ j.val) → t.pinf.getLsbD j.val = s.pinf.getLsbD j.val) ∧
    (isSign i = false → isDer i = false → t.derBuf = s.derBuf ∧ t.derLen = s.derLen) ∧
    (isSign i = false → t.signDraws = s.signDraws ∧ t.attempts = s.attempts ∧ t.snap = s.snap ∧ t.draw = s.draw) ∧
    t.ie = s.ie ∧ t.ovr = s.ovr ∧ t.cur = s.cur ∧ t.msgLen = s.msgLen ∧ t.rst = s.rst ∧ t.cfg = s.cfg ∧
    t.agenda = s.agenda ∧ t.resp = s.resp ∧ t.freeCount = s.freeCount

/-- The inference R91 draws from R89 and R90, for the commands other than SIGN: the error code, the results, their VALID
and infinity bits, and DER's encoding are a function of the operands alone. -/
def Obligations.OutcomeDependsOnOperandsOnly : Prop :=
  ∀ (i : Instr) (s s' t : State), isSign i = false →
    (∀ k ∈ scalarSources i ++ (pointSources i).flatMap pair,
      s'.w[k] = s.w[k] ∧ s'.valid.getLsbD k.val = s.valid.getLsbD k.val) →
    (∀ j ∈ pointSources i, s'.pinf.getLsbD j.val = s.pinf.getLsbD j.val) →
    exec i s = .next t →
    ∃ t', exec i s' = .next t' ∧ t'.errCode = t.errCode ∧
      (t.errCode = .none →
        (∀ k ∈ dests i, t'.w[k] = t.w[k] ∧ t'.valid.getLsbD k.val = t.valid.getLsbD k.val ∧
          t'.pinf.getLsbD (k.val / 2) = t.pinf.getLsbD (k.val / 2)) ∧
        (isDer i = true → t'.derBuf = t.derBuf ∧ t'.derLen = t.derLen))

/-! Field units (41_field.md). -/

/-- R100 to R102, R104, R73: FADD, FSUB and FMUL write the exact result reduced mod M, and change nothing else but their
completion; M(0) is the p of R18 and M(1) the n of R20. -/
def Obligations.FieldCommandsWriteReducedResults : Prop :=
  (modulusValue (modulusOf 0#1) = 0xFFFFFFFFFFFFFFFFFFFFFFFFFFFFFFFFFFFFFFFFFFFFFFFFFFFFFFFEFFFFFC2F ∧
    modulusValue (modulusOf 1#1) = 0xFFFFFFFFFFFFFFFFFFFFFFFFFFFFFFFEBAAEDCE6AF48A03BBFD25E8CD0364141 ∧
    modulusValue .p = fieldPrime ∧ modulusValue .n = groupOrder ∧
    fieldPrime = 0xFFFFFFFFFFFFFFFFFFFFFFFFFFFFFFFFFFFFFFFFFFFFFFFFFFFFFFFEFFFFFC2F ∧
    groupOrder = 0xFFFFFFFFFFFFFFFFFFFFFFFFFFFFFFFEBAAEDCE6AF48A03BBFD25E8CD0364141) ∧
  ∀ (m : Modulus) (rd ra rb : WIdx) (s : State), s.valid.getLsbD ra.val = true → s.valid.getLsbD rb.val = true →
    exec (.fadd m rd ra rb) s =
      .next (finished (withScalar s rd ((s.w[ra].toNat + s.w[rb].toNat) % modulusValue m)) .none) ∧
    exec (.fsub m rd ra rb) s =
      .next (finished (withScalar s rd (((s.w[ra].toNat : Int) - s.w[rb].toNat) % modulusValue m).toNat) .none) ∧
    exec (.fmul m rd ra rb) s =
      .next (finished (withScalar s rd ((s.w[ra].toNat * s.w[rb].toNat) % modulusValue m)) .none)

/-- R103, R8: FINV writes the one t with 0 < t < M and a·t ≡ 1 mod M, for every a that is not 0 mod M. -/
def Obligations.FinvWritesTheInverse : Prop :=
  ∀ (m : Modulus) (rd ra : WIdx) (s : State), s.valid.getLsbD ra.val = true → s.w[ra].toNat % modulusValue m ≠ 0 →
    ∃ t, 0 < t ∧ t < modulusValue m ∧ s.w[ra].toNat * t % modulusValue m = 1 ∧
      (∀ u, 0 < u → u < modulusValue m → s.w[ra].toNat * u % modulusValue m = 1 → u = t) ∧
      exec (.finv m rd ra) s = .next (finished (withScalar s rd t) .none)

/-- R103: FINV raises ARITH_DOMAIN exactly when a is 0 or M; then nothing but its completion happens. -/
def Obligations.FinvRaisesExactlyAtZeroAndModulus : Prop :=
  ∀ (m : Modulus) (rd ra : WIdx) (s : State), s.valid.getLsbD ra.val = true →
    (exec (.finv m rd ra) s = .next (finished s .arithDomain) ↔
      s.w[ra].toNat = 0 ∨ s.w[ra].toNat = modulusValue m)

/-- R104: every result of a field command lies in [0, M), FINV's in [1, M). -/
def Obligations.FieldResultsLieBelowTheModulus : Prop :=
  ∀ (m : Modulus) (rd ra rb : WIdx) (s t : State), t.errCode = .none →
    (exec (.fadd m rd ra rb) s = .next t → t.w[rd].toNat < modulusValue m) ∧
    (exec (.fsub m rd ra rb) s = .next t → t.w[rd].toNat < modulusValue m) ∧
    (exec (.fmul m rd ra rb) s = .next t → t.w[rd].toNat < modulusValue m) ∧
    (exec (.finv m rd ra) s = .next t → 1 ≤ t.w[rd].toNat ∧ t.w[rd].toNat < modulusValue m)

/-- R23, R88: a command with an operand that is not written, or a point operand that is not readable, ends with
PRECONDITION, and nothing but its completion happens. -/
def Obligations.UnreadableOperandsRaisePrecondition : Prop :=
  ∀ s : State,
    (∀ m rd ra rb, s.valid.getLsbD ra.val = false ∨ s.valid.getLsbD rb.val = false →
      exec (.fadd m rd ra rb) s = .next (finished s .precondition) ∧
      exec (.fsub m rd ra rb) s = .next (finished s .precondition) ∧
      exec (.fmul m rd ra rb) s = .next (finished s .precondition)) ∧
    (∀ m rd ra, s.valid.getLsbD ra.val = false → exec (.finv m rd ra) s = .next (finished s .precondition)) ∧
    (∀ rd ra, s.ptReadable ra = false → exec (.pdbl rd ra) s = .next (finished s .precondition)) ∧
    (∀ rd ra rb, s.ptReadable ra = false ∨ s.ptReadable rb = false →
      exec (.padd rd ra rb) s = .next (finished s .precondition)) ∧
    (∀ rd ra rb, s.valid.getLsbD ra.val = false ∨ s.ptReadable rb = false →
      exec (.pmul rd ra rb) s = .next (finished s .precondition)) ∧
    (∀ rd ra, s.valid.getLsbD ra.val = false → exec (.pmulG rd ra) s = .next (finished s .precondition)) ∧
    (∀ rd ra, s.ptReadable ra = false → exec (.pchk rd ra) s = .next (finished s .precondition)) ∧
    (∀ wr ws, s.valid.getLsbD wr.val = false ∨ s.valid.getLsbD ws.val = false →
      exec (.der wr ws) s = .next (finished s .precondition))

/-! Point units (42_point.md). -/

/-- R24: the point value of a point register, and when it is readable. -/
def Obligations.PointRegistersViewPairs : Prop :=
  ∀ (s : State) (j : PIdx),
    (s.pinf.getLsbD j.val = true → s.point j = .inf ∧ s.ptReadable j = true) ∧
    (s.pinf.getLsbD j.val = false →
      s.point j = .fin (s.w[2 * j.val]'(by omega)).toNat (s.w[2 * j.val + 1]'(by omega)).toNat ∧
      (s.ptReadable j = true ↔ s.valid.getLsbD (2 * j.val) = true ∧ s.valid.getLsbD (2 * j.val + 1) = true))

/-- R120: PDBL writes PDouble of its operand. -/
def Obligations.PdblWritesTheDouble : Prop :=
  ∀ (rd ra : PIdx) (s : State), s.ptReadable ra = true →
    exec (.pdbl rd ra) s = .next (finished (withPoint s rd (pDouble (s.point ra))) .none)

/-- R121, R112: PADD writes PAdd of its operands, unless both are finite with equal x and y neither equal nor opposite
mod p: then it raises ARITH_DOMAIN and nothing but its completion happens. -/
def Obligations.PaddWritesTheSumOrRaises : Prop :=
  ∀ (rd ra rb : PIdx) (s : State), s.ptReadable ra = true → s.ptReadable rb = true →
    (∀ q, pAdd (s.point ra) (s.point rb) = some q → exec (.padd rd ra rb) s = .next (finished (withPoint s rd q) .none)) ∧
    (∀ x y x' y', s.point ra = .fin x y → s.point rb = .fin x' y' → x % fieldPrime = x' % fieldPrime →
      y % fieldPrime ≠ y' % fieldPrime → (y + y') % fieldPrime ≠ 0 →
      exec (.padd rd ra rb) s = .next (finished s .arithDomain))

/-- R122, R119: PMUL writes PScalar of the whole 256-bit scalar and the point. -/
def Obligations.PmulWritesTheMultiple : Prop :=
  ∀ (rd : PIdx) (ra : WIdx) (rb : PIdx) (s : State) (q : Point), s.valid.getLsbD ra.val = true →
    s.ptReadable rb = true → pScalar s.w[ra].toNat (s.point rb) = some q →
    exec (.pmul rd ra rb) s = .next (finished (withPoint s rd q) .none)

/-- R122, R74, R19: PMUL.G writes PScalar of the scalar and G, whatever the point registers hold. -/
def Obligations.PmulGWritesTheMultipleOfG : Prop :=
  ∀ (rd : PIdx) (ra : WIdx) (s : State) (q : Point), s.valid.getLsbD ra.val = true →
    pScalar s.w[ra].toNat
      (.fin 0x79BE667EF9DCBBAC55A06295CE870B07029BFCDB2DCE28D959F2815B16F81798
        0x483ADA7726A3C4655DA4FBFC0E1108A8FD17B448A68554199C47D08FFB10D4B8) = some q →
    exec (.pmulG rd ra) s = .next (finished (withPoint s rd q) .none)

/-- R123, R114: PCHK writes 1 for INF, and for a finite point 1 or 0 as the curve equation holds on the raw
coordinates. -/
def Obligations.PchkWritesCurveMembership : Prop :=
  ∀ (rd : WIdx) (ra : PIdx) (s : State), s.ptReadable ra = true →
    (s.point ra = .inf → exec (.pchk rd ra) s = .next (finished (withScalar s rd 1) .none)) ∧
    (∀ x y, s.point ra = .fin x y →
      exec (.pchk rd ra) s =
        .next (finished (withScalar s rd (if y * y % fieldPrime = (x * x * x + 7) % fieldPrime then 1 else 0)) .none))

/-- R111: PDouble is the tangent rule mod p, INF for INF and for y ≡ 0. -/
def Obligations.PDoubleIsTheTangentRule : Prop :=
  pDouble .inf = .inf ∧
  (∀ x y : Nat, y % fieldPrime = 0 → pDouble (.fin x y) = .inf) ∧
  (∀ x y : Nat, y % fieldPrime ≠ 0 →
    ∃ (x3 y3 : Nat) (lam : ZMod fieldPrime), pDouble (.fin x y) = .fin x3 y3 ∧ x3 < fieldPrime ∧ y3 < fieldPrime ∧
      lam * (2 * y) = 3 * x ^ 2 ∧ (x3 : ZMod fieldPrime) = lam ^ 2 - 2 * x ∧
      (y3 : ZMod fieldPrime) = lam * (x - x3) - y)

/-- R112: PAdd's special cases and the chord rule mod p. -/
def Obligations.PAddIsTheChordRule : Prop :=
  (∀ q, pAdd .inf q = some q) ∧
  (∀ p, pAdd p .inf = some p) ∧
  (∀ x y x' y' : Nat, x % fieldPrime = x' % fieldPrime → y % fieldPrime = y' % fieldPrime →
    pAdd (.fin x y) (.fin x' y') = some (pDouble (.fin x y))) ∧
  (∀ x y x' y' : Nat, x % fieldPrime = x' % fieldPrime → y % fieldPrime ≠ y' % fieldPrime →
    pAdd (.fin x y) (.fin x' y') = if (y + y') % fieldPrime = 0 then some .inf else none) ∧
  (∀ x y x' y' : Nat, x % fieldPrime ≠ x' % fieldPrime →
    ∃ (x3 y3 : Nat) (lam : ZMod fieldPrime), pAdd (.fin x y) (.fin x' y') = some (.fin x3 y3) ∧
      x3 < fieldPrime ∧ y3 < fieldPrime ∧ lam * ((x' : ZMod fieldPrime) - x) = y' - y ∧
      (x3 : ZMod fieldPrime) = lam ^ 2 - x - x' ∧ (y3 : ZMod fieldPrime) = lam * (x - x3) - y)

/-- R113: PScalar is double-and-add from the most significant bit: 0 gives INF, and each further bit doubles and
adds. -/
def Obligations.PScalarIsDoubleAndAdd : Prop :=
  ∀ (k : Nat) (p : Point), k < 2 ^ 255 →
    pScalar 0 p = some .inf ∧
    pScalar (2 * k) p = (pScalar k p).map pDouble ∧
    pScalar (2 * k + 1) p = (pScalar k p).bind fun q => pAdd (pDouble q) p

/-- The inference R118 draws ("`PScalar` never raises ARITH_DOMAIN, even for a point that is not on the curve"); its
result lies on the point's own curve `y^2 = x^3 + b'`, and PAdd raises only for two points that lie on different such
curves. -/
def Obligations.PScalarNeverRaises : Prop :=
  (∀ (k : Nat) (p : Point), ∃ q, pScalar k p = some q ∧ sameCurve p q) ∧
  (∀ p q : Point, pAdd p q = none → ¬ sameCurve p q)

/-- The laws that R116 infers from the group law ("For points on the curve these laws hold"), of the point functions. -/
def Obligations.PointLawsOnTheCurve : Prop :=
  ∀ p q : Point, onCurve p = true → onCurve q = true →
    pAdd p .inf = some p ∧
    pScalar 0 p = some .inf ∧
    (p ≠ .inf → q ≠ .inf → p ≠ q → pAdd p q = pAdd q p) ∧
    (∀ k, ∃ r, pScalar k p = some r ∧ onCurve r = true) ∧
    pAdd p p = some (pDouble p)

/-! The sign engine (43_sign.md). -/

/-- R125, R126, R146: SIGN's check step: INPUT_ERROR, then KEY_FORMAT, then PRECONDITION, each with SIGN_DRAWS 0 and no
request; else the snapshot is taken and the first draw requested (that no draw is held tells the check step from an
attempt, log entry 8). -/
def Obligations.SignChecksInOrder : Prop :=
  ∀ (wr ws we wd : WIdx) (s : State), s.draw = none →
    (s.msgLen = 0#32 → exec (.sign wr ws we wd) s = .next { finished s .inputError with signDraws := 0#32 }) ∧
    (s.msgLen ≠ 0#32 → s.valid.getLsbD wd.val = false →
      exec (.sign wr ws we wd) s = .next { finished s .keyFormat with signDraws := 0#32 }) ∧
    (s.msgLen ≠ 0#32 → s.valid.getLsbD wd.val = true → s.valid.getLsbD we.val = false →
      exec (.sign wr ws we wd) s = .next { finished s .precondition with signDraws := 0#32 }) ∧
    (s.msgLen ≠ 0#32 → s.valid.getLsbD wd.val = true → s.valid.getLsbD we.val = true →
      exec (.sign wr ws we wd) s =
        .next { s with snap := ⟨s.w[we], s.w[wd]⟩, attempts := 0, entReq := true, eng := .waitEntropy })

/-- R125, R132: an accepted draw k with R = (x, y), r = x mod n ≠ 0 and s = inv(k, n)·(e + d·r) mod n ≠ 0 commits r, s,
their DER encoding and SIGN_DRAWS, and completes (the delivered draw is held as log entry 8 says). -/
def Obligations.SignCommitsAnAcceptedDraw : Prop :=
  ∀ (wr ws we wd : WIdx) (s : State) (k : Word) (x y : Nat), s.draw = some k →
    1 ≤ k.toNat → k.toNat < groupOrder → pScalar k.toNat basePoint = some (.fin x y) → x % groupOrder ≠ 0 →
    inv k.toNat groupOrder * (s.snap.e.toNat + s.snap.d.toNat * (x % groupOrder)) % groupOrder ≠ 0 →
    exec (.sign wr ws we wd) s =
      .next (finished
        { withDer
            (withScalar (withScalar { s with draw := none, attempts := s.attempts + 1 } wr (x % groupOrder)) ws
              (inv k.toNat groupOrder * (s.snap.e.toNat + s.snap.d.toNat * (x % groupOrder)) % groupOrder))
            (derSig (BitVec.ofNat 256 (x % groupOrder))
              (BitVec.ofNat 256
                (inv k.toNat groupOrder * (s.snap.e.toNat + s.snap.d.toNat * (x % groupOrder)) % groupOrder)))
          with signDraws := BitVec.ofNat 32 (s.attempts + 1) } .none)

/-- R125, R127, R128: a draw that is 0 or at least n, or gives r = 0 or s = 0, is rejected: at the cap SIGN ends with
RETRY_LIMIT and SIGN_DRAWS, below it the next draw is requested, and nothing else changes (the delivered draw is held as
log entry 8 says). -/
def Obligations.SignRejectsAndRetriesUpToTheCap : Prop :=
  ∀ (wr ws we wd : WIdx) (s : State) (k : Word), s.draw = some k →
    (k.toNat = 0 ∨ groupOrder ≤ k.toNat ∨
      ∃ x y, pScalar k.toNat basePoint = some (.fin x y) ∧
        (x % groupOrder = 0 ∨
          inv k.toNat groupOrder * (s.snap.e.toNat + s.snap.d.toNat * (x % groupOrder)) % groupOrder = 0)) →
    (s.attempts + 1 = s.cfg.signMaxAttempts →
      exec (.sign wr ws we wd) s =
        .next { finished { s with draw := none, attempts := s.attempts + 1 } .retryLimit with
          signDraws := BitVec.ofNat 32 (s.attempts + 1) }) ∧
    (s.attempts + 1 ≠ s.cfg.signMaxAttempts →
      exec (.sign wr ws we wd) s =
        .next { s with draw := none, attempts := s.attempts + 1, entReq := true, eng := .waitEntropy })

/-- The inference R133 draws ("Every successful SIGN gives `0 < r < n` and `0 < s < n`"). -/
def Obligations.SignResultsLieInRange : Prop :=
  ∀ (wr ws we wd : WIdx) (s t : State), wr ≠ ws → s.draw.isSome = true → exec (.sign wr ws we wd) s = .next t →
    t.eng = .idle → t.errCode = .none →
    0 < t.w[wr].toNat ∧ t.w[wr].toNat < groupOrder ∧ 0 < t.w[ws].toNat ∧ t.w[ws].toNat < groupOrder

/-- R131: e and d enter only mod n: a draw comes to the same for e and e mod n, and for d and d mod n. -/
def Obligations.SignUsesDigestAndKeyModN : Prop :=
  ∀ k e d : Nat, signDraw k e d = signDraw k (e % groupOrder) (d % groupOrder)

/-- The inferences R129 and R130 draw from the prime order n of G: for an accepted k, PScalar(k, G) is a finite point on
the curve with x < p, and inv(k, n) exists. -/
def Obligations.AcceptedNonceGivesAFinitePoint : Prop :=
  ∀ k : Nat, 1 ≤ k → k < groupOrder →
    (∃ x y, pScalar k basePoint = some (.fin x y) ∧ onCurve (.fin x y) = true ∧ x < fieldPrime) ∧
    k * inv k groupOrder % groupOrder = 1

/-- R127, and the inference R92 draws from it: a waiting SIGN whose requests are all answered completes within the draws
it has left, whatever the values, as long as none is an accepted nonce whose R is INF (R129 rules that out; the model
stops there, log entry 9). That the answers and turns stand on the agenda, and are used up, is the model's, log entries
1 and 21. -/
def Obligations.SignEndsWithinTheCap : Prop :=
  ∀ (s : State) (bs : List (Vector Byte 32)), s.Inv → s.eng = .waitEntropy →
    bs.length = s.cfg.signMaxAttempts - s.attempts →
    (∀ b ∈ bs, signDraw (drawOf b).toNat s.snap.e.toNat s.snap.d.toNat ≠ .noX) →
    ∃ t : State, Host.Core.run Sys2Proof.core (2 * bs.length) { s with agenda := rounds bs } = .next t ∧
      t.eng = .idle ∧ t.done = true ∧ t.agenda = []

/-- R67: only SIGN requests entropy, and a SIGN that ends requests none. -/
def Obligations.OnlyARunningSignRequestsEntropy : Prop :=
  ∀ (i : Instr) (s t : State), exec i s = .next t →
    (t.entReq = true → isSign i = true ∧ t.eng = .waitEntropy) ∧
    (t.errCode ≠ .none → s.errCode = .none → t.entReq = false)

/-! The DER encoder (44_der.md). -/

/-- R137, R138: DER writes the encoding of its two operands, zeros after it and its length, and changes nothing else but
its completion. -/
def Obligations.DerWritesTheEncoding : Prop :=
  ∀ (wr ws : WIdx) (s : State), s.valid.getLsbD wr.val = true → s.valid.getLsbD ws.val = true →
    exec (.der wr ws) s = .next (finished (withDer s (derSig s.w[wr] s.w[ws])) .none)

/-- R135: be_bytes is the big-endian string of the value with no leading zero byte, [0x00] for 0; DerInt pads it exactly
when its first byte has the high bit set. -/
def Obligations.DerIntegersAreMinimal : Prop :=
  beBytes 0#256 = [0#8] ∧
  ∀ v : Word, ∃ b bs, beBytes v = b :: bs ∧ beValue (beBytes v) = v.toNat ∧ (v ≠ 0#256 → b ≠ 0#8) ∧
    derInt v = (if 0x80#8 ≤ b then 0x02#8 :: BitVec.ofNat 8 (bs.length + 2) :: 0#8 :: b :: bs
      else 0x02#8 :: BitVec.ofNat 8 (bs.length + 1) :: b :: bs)

/-- The bounds that R139 infers: each INTEGER content is 1 to 33 bytes, the SEQUENCE content is 4 more than the two
together and 6 to 70 bytes, the whole 8 to 72, every length byte is below 0x80, and values below 2^255 give at most 70
bytes. -/
def Obligations.DerLengthsAreBounded : Prop :=
  (∀ v : Word, 3 ≤ (derInt v).length ∧ (derInt v).length ≤ 35 ∧
    (derInt v).tail.head? = some (BitVec.ofNat 8 ((derInt v).length - 2)) ∧ (derInt v).length - 2 < 0x80) ∧
  (∀ r s : Word, (derSig r s).length = 2 + (derInt r).length + (derInt s).length ∧
    8 ≤ (derSig r s).length ∧ (derSig r s).length ≤ 72 ∧
    (derSig r s).tail.head? = some (BitVec.ofNat 8 ((derSig r s).length - 2)) ∧ (derSig r s).length - 2 < 0x80 ∧
    (r.toNat < 2 ^ 255 → s.toNat < 2 ^ 255 → (derSig r s).length ≤ 70))

/-- The property R141 infers: "parsing `DerSig(r, s)` as a DER SEQUENCE of two INTEGERs gives back (r, s) exactly". -/
def Obligations.DerRoundTrip : Prop :=
  ∀ r s : Word, readSignature (derSig r s) = some (r.toNat, s.toNat)

/-! Errors and completion (60_exceptions.md). -/

/-- R94, R148: errors are precise: a command that ends in an error changes its completion fields alone, and a SIGN also
SIGN_DRAWS, with its hidden draw and count. The held draw is the model's, log entry 8. -/
def Obligations.ErrorsArePrecise : Prop :=
  ∀ (i : Instr) (s t : State), exec i s = .next t → t.eng = .idle → t.errCode ≠ .none →
    (isSign i = false → t = finished s t.errCode) ∧
    (isSign i = true →
      t = { finished s t.errCode with signDraws := t.signDraws, attempts := t.attempts, draw := none })

/-- The table that R145 infers: the codes each decoded command can complete with. -/
def Obligations.ErrorCodesPerCommand : Prop :=
  ∀ (i : Instr) (s t : State), exec i s = .next t → t.eng = .idle → t.errCode ∈ codes i

/-- R152, R153: a completion, success or error, sets DONE, and IRQ then is IE. -/
def Obligations.CompletionRaisesTheInterrupt : Prop :=
  ∀ (i : Instr) (s t : State), exec i s = .next t → t.eng = .idle → t.done = true ∧ t.irq = s.ie

/-- R37, R150: IRQ is IE and DONE; the host's acknowledgement clears DONE, so that IRQ falls, and leaves ERRCODE. A
write's response is held as log entry 4 says. -/
def Obligations.AcknowledgeClearsDone : Prop :=
  ∀ s : State, s.irq = (s.ie && s.done) ∧
    (s.rst = false →
      s.hostAccess (.write (s.cfg.base + 0x004) 4 0x00000002#32) = { s with done := false, resp := .done } ∧
      (s.hostAccess (.write (s.cfg.base + 0x004) 4 0x00000002#32)).irq = false)

/-! Host accesses (20_memory.md, 10_state.md). -/

/-- R57, with R27, R28, R39 and R167 for what the CTRL and STATUS writes do: while BUSY, a write to CMD, MSG_LEN, PINF,
W_VALID or a W word only sets OVR; writes to CTRL and STATUS are accepted; writes to read-only or reserved locations are
ignored, BUSY or not. That a write is answered `done`, performed, ignored or dropped, is the model's choice, log entry
4. -/
def Obligations.BusyWritesAreDropped : Prop :=
  ∀ (s : State) (off : Nat) (v : Bus), s.rst = false → off % 4 = 0 →
    (s.busy = true → droppedWhileBusy off →
      s.hostAccess (.write (s.cfg.base + off) 4 v) = { s with ovr := true, resp := .done }) ∧
    (off = 0x000 → v.getLsbD 1 = false →
      s.hostAccess (.write (s.cfg.base + off) 4 v) = { s with ie := v.getLsbD 0, resp := .done }) ∧
    (off = 0x000 → v.getLsbD 1 = true →
      ∃ x : Snap, s.hostAccess (.write (s.cfg.base + off) 4 v) = { atReset s with snap := x, resp := .done }) ∧
    (off = 0x004 →
      s.hostAccess (.write (s.cfg.base + off) 4 v) =
        { s with done := s.done && !v.getLsbD 1, ovr := s.ovr && !v.getLsbD 3, resp := .done }) ∧
    (ignoresWrites off → s.hostAccess (.write (s.cfg.base + off) 4 v) = { s with resp := .done })

/-- R56: no read has a side effect on the block, and every read is idempotent. The response and the count of free values
are the model's, log entries 4 and 5. -/
def Obligations.ReadsHaveNoSideEffect : Prop :=
  ∀ (s : State) (a size : Nat),
    (∃ r c, s.hostAccess (.read a size) = { s with resp := r, freeCount := c }) ∧
    (s.rst = false →
      (s.hostAccess (.read a size)).freeCount = s.freeCount ∧
      (s.hostAccess (.read a size)).hostAccess (.read a size) = s.hostAccess (.read a size))

/-- R48: any access to the window that is not of 32 bits at a multiple of 4 gets a bus error and has no effect on the
block's state. Which accesses are the window's (those whose first byte lies in it) is the model's choice, log entry 12;
the response is held as log entry 4 says. -/
def Obligations.OtherAccessesGetABusError : Prop :=
  ∀ (s : State) (a : Access), s.rst = false → s.cfg.base ≤ a.addr → a.addr < s.cfg.base + 4096 →
    (a.size ≠ 4 ∨ (a.addr - s.cfg.base) % 4 ≠ 0) → s.hostAccess a = { s with resp := .busError }

/-- R49: an aligned 32-bit access to a reserved offset completes: a read returns 0, a write is ignored. That an ignored
write is answered `done` is the model's choice, log entry 4. -/
def Obligations.ReservedOffsetsReadZero : Prop :=
  ∀ (s : State) (off : Nat) (v : Bus), s.rst = false → off % 4 = 0 →
    ((0x020 ≤ off ∧ off < 0x100) ∨ (0x348 ≤ off ∧ off < 0x1000)) →
    s.hostAccess (.read (s.cfg.base + off) 4) = { s with resp := .data 0#32 } ∧
    s.hostAccess (.write (s.cfg.base + off) 4 v) = { s with resp := .done }

/-- R50: a read of word j of Wi returns its bits; a write while idle replaces those bits alone, sets VALID[i] and clears
the pair's infinity bit; and eight word writes in any order load a 256-bit value. A write's response is held as log
entry 4 says. -/
def Obligations.WordWritesLoadARegister : Prop :=
  ∀ (s : State) (i : WIdx), s.rst = false →
    (∀ j : Lane, s.hostAccess (.read (s.cfg.base + (0x100 + 32 * i.val + 4 * j.val)) 4) =
      { s with resp := .data (s.w[i].extractLsb' (32 * j.val) 32) }) ∧
    (s.eng = .idle → ∀ (j : Lane) (v : Bus), ∃ x : Word,
      s.hostAccess (.write (s.cfg.base + (0x100 + 32 * i.val + 4 * j.val)) 4 v) =
        { withScalar s i x.toNat with resp := .done } ∧
      x.extractLsb' (32 * j.val) 32 = v ∧
      ∀ j' : Lane, j' ≠ j → x.extractLsb' (32 * j'.val) 32 = s.w[i].extractLsb' (32 * j'.val) 32) ∧
    (s.eng = .idle → ∀ (v : Word) (l : List Lane), l.Perm (List.finRange 8) →
      (l.foldl (fun t j =>
        t.hostAccess (.write (t.cfg.base + (0x100 + 32 * i.val + 4 * j.val)) 4 (v.extractLsb' (32 * j.val) 32))) s).w[i] = v)

/-- R52: a read of DER buffer word l returns its four bytes, the lowest in bits [7:0]; writes to the buffer are ignored.
That an ignored write is answered `done` is the model's choice, log entry 4. -/
def Obligations.DerBufferReadsLittleEndian : Prop :=
  ∀ (s : State) (l : DerLane) (v : Bus), s.rst = false →
    s.hostAccess (.read (s.cfg.base + (0x300 + 4 * l.val)) 4) =
      { s with resp := .data ((s.derBuf[4 * l.val + 3]'(by omega)) ++ (s.derBuf[4 * l.val + 2]'(by omega)) ++
        (s.derBuf[4 * l.val + 1]'(by omega)) ++ (s.derBuf[4 * l.val]'(by omega))) } ∧
    s.hostAccess (.write (s.cfg.base + (0x300 + 4 * l.val)) 4 v) = { s with resp := .done }

/-- R28, R143: the fields of STATUS as it reads: BUSY, DONE, ERR, OVR and ERRCODE, the reserved bits 0; and the numbers
of the error codes. -/
def Obligations.StatusReadsItsFields : Prop :=
  (ErrCode.none.code = 0x00#8 ∧ ErrCode.illegalCmd.code = 0x01#8 ∧ ErrCode.inputError.code = 0x02#8 ∧
    ErrCode.keyFormat.code = 0x03#8 ∧ ErrCode.arithDomain.code = 0x04#8 ∧ ErrCode.precondition.code = 0x05#8 ∧
    ErrCode.retryLimit.code = 0x06#8) ∧
  ∀ s : State,
    s.statusWord.toNat = (if s.eng = .idle then 0 else 1) + 2 * s.done.toNat + 4 * (if s.errCode = .none then 0 else 1) +
      8 * s.ovr.toNat + 256 * s.errCode.code.toNat ∧
    (s.rst = false → s.hostAccess (.read (s.cfg.base + 0x004) 4) = { s with resp := .data s.statusWord })

/-- R26, R27, R29 to R32, R34: CTRL reads IE with SRST 0, CMD the latched word, MSG_LEN, W_VALID, PINF, DER_LEN and
SIGN_DRAWS their fields, each with its reserved bits 0, in every state with RST released; and while idle a write sets
PINF's eight bits at once, MSG_LEN takes the word, and W_VALID clears VALID[i] and zeroes W[i] where the written bit is
1, leaving PINF (a write's response is held as log entry 4 says). -/
def Obligations.RegisterReadsAndIdleWrites : Prop :=
  ∀ (s : State) (v : Bus), s.rst = false →
    (s.hostAccess (.read (s.cfg.base + 0x000) 4) = { s with resp := .data (if s.ie then 1#32 else 0#32) } ∧
      s.hostAccess (.read (s.cfg.base + 0x008) 4) = { s with resp := .data s.cur } ∧
      s.hostAccess (.read (s.cfg.base + 0x00C) 4) = { s with resp := .data s.msgLen } ∧
      s.hostAccess (.read (s.cfg.base + 0x010) 4) = { s with resp := .data (s.valid.setWidth 32) } ∧
      s.hostAccess (.read (s.cfg.base + 0x014) 4) = { s with resp := .data (s.pinf.setWidth 32) } ∧
      s.hostAccess (.read (s.cfg.base + 0x018) 4) = { s with resp := .data (s.derLen.setWidth 32) } ∧
      s.hostAccess (.read (s.cfg.base + 0x01C) 4) = { s with resp := .data s.signDraws }) ∧
    (s.eng = .idle →
      s.hostAccess (.write (s.cfg.base + 0x014) 4 v) = { s with pinf := v.extractLsb' 0 8, resp := .done } ∧
      s.hostAccess (.write (s.cfg.base + 0x00C) 4 v) = { s with msgLen := v, resp := .done } ∧
      ∃ t : State, s.hostAccess (.write (s.cfg.base + 0x010) 4 v) = { s with w := t.w, valid := t.valid, resp := .done } ∧
        ∀ i : WIdx, t.w[i] = (if v.getLsbD i.val then 0#256 else s.w[i]) ∧
          t.valid.getLsbD i.val = (s.valid.getLsbD i.val && !v.getLsbD i.val))

/-- The inference R58 draws from R57 and R93: while a command stays in flight, no step but a host write to CTRL changes
what a location other than STATUS reads as. -/
def Obligations.ReadsAreStableWhileBusy : Prop :=
  ∀ (e : Event) (s t : State), s.rst = false → s.busy = true → t.busy = true → perform e s = .next t →
    (∀ size v, e ≠ .host (.write s.cfg.base size v)) →
    ∀ l : Loc, l ≠ .status → t.readLoc l = s.readLoc l

/-! The entropy port, reset, and the invariant (20_memory.md, 70_reset_and_hazards.md). -/

/-- R66: a delivery that answers a request hands the engine the big-endian integer of the 32 bytes, ends the request and
returns the engine to RUN (it is held until the attempt step, log entry 8). That any delivery in WAIT_ENTROPY answers
the pending request is the model's choice, log entry 26. -/
def Obligations.DeliveryHandsOverTheDraw : Prop :=
  ∀ (s : State) (b : Vector Byte 32), s.rst = false → s.eng = .waitEntropy →
    ∃ k : Word, perform (.entropy b) s = .next { s with draw := some k, entReq := false, eng := .run } ∧
      k.toNat = ∑ t : Fin 32, b[t].toNat * 256 ^ (31 - t.val)

/-- R67, R167: a delivery that finds no request changes nothing; so it is after a soft reset that withdrew the request.
For a request that was never made this is the model's, log entry 24. -/
def Obligations.UnrequestedDeliveryIsDiscarded : Prop :=
  ∀ (s : State) (b : Vector Byte 32),
    (s.eng ≠ .waitEntropy → perform (.entropy b) s = .next s) ∧
    (∀ v : Bus, v.getLsbD 1 = true → perform (.entropy b) (s.writeLoc v .ctrl) = .next (s.writeLoc v .ctrl))

/-- R167: a CTRL write with SRST set resets the block in that access, busy or not, and stores nothing of the written
value (that SNAP is 0 then is the model's choice, log entry 10). A write's response is held as log entry 4 says. -/
def Obligations.SoftResetRestoresEverything : Prop :=
  ∀ (s : State) (v : Bus), s.rst = false → v.getLsbD 1 = true →
    s.hostAccess (.write s.cfg.base 4 v) = { atReset s with resp := .done } ∧
    (s.hostAccess (.write s.cfg.base 4 v)).irq = false ∧
    (s.hostAccess (.write s.cfg.base 4 v)).statusWord = 0#32

/-- R165, R166: asserting RST resets the block; while it is asserted no step changes the block; its release leaves the
reset values (that the registers are reset from the assertion on is log entry 11, and that SNAP is 0 then is log entry
10). An access then is answered by a free value, log entry 5. -/
def Obligations.HardwareResetHoldsTheBlock : Prop :=
  ∀ s : State,
    perform .assertRst s = .next { atReset s with rst := true } ∧
    (s.rst = true → ∀ e, e ≠ .assertRst → e ≠ .releaseRst → ∃ r c, perform e s = .next { s with resp := r, freeCount := c }) ∧
    perform .releaseRst s = .next { s with rst := false }

/-- R39: the reset values (SNAP's 0 is the model's, log entry 10, and the parameters are log entry 6's: neither is
claimed). -/
def Obligations.ResetValues : Prop :=
  (∀ i : WIdx, State.reset.w[i] = 0#256) ∧ State.reset.valid = 0#16 ∧ State.reset.pinf = 0#8 ∧
  State.reset.ctrlWord = 0#32 ∧ State.reset.statusWord = 0#32 ∧ State.reset.cur = 0#32 ∧ State.reset.msgLen = 0#32 ∧
  State.reset.derLen = 0#7 ∧ (∀ b : Fin 72, State.reset.derBuf[b] = 0#8) ∧ State.reset.signDraws = 0#32 ∧
  State.reset.eng = .idle ∧ State.reset.attempts = 0 ∧ State.reset.entReq = false ∧ State.reset.irq = false

/-- What R168 infers from R23 and R39: after a reset every read returns 0, every command with an operand raises
PRECONDITION, and SIGN, once MSG_LEN is written, KEY_FORMAT (before that SIGN's first check is MSG_LEN, log entry
17). -/
def Obligations.AfterResetNothingIsReadable : Prop :=
  ∀ s : State, s.rst = false →
    (∀ off, off % 4 = 0 → off < 4096 →
      (atReset s).hostAccess (.read (s.cfg.base + off) 4) = { atReset s with resp := .data 0#32 }) ∧
    (∀ i : Instr, i ≠ .nop → isSign i = false → exec i (atReset s) = .next (finished (atReset s) .precondition)) ∧
    (∀ (wr ws we wd : WIdx) (n : Bus), n ≠ 0#32 →
      exec (.sign wr ws we wd) { atReset s with msgLen := n } =
        .next (finished { atReset s with msgLen := n } .keyFormat))

/-- The invariant holds after reset. Its fields are R39's; that the parameters are lawful is the model's, of the BASE
and cap of log entry 6 and the bound of log entry 7; the held draw and the level of RST are log entries 8 and 11. -/
def Obligations.InvariantHoldsAtReset : Prop := State.reset.Inv

/-- Every step keeps the invariant: ENT_REQ and ENG_STATE agree (R36), a busy block has nothing done and no error (R86),
a running SIGN has draws left and no stale operand (R63, R127), the DER buffer is zero past a lawful length (R138),
SIGN_DRAWS is at most the cap (R34; the cap's bound is log entry 7); and no step changes the parameters (R6). The
model's own in it: a draw is held only in RUN (log entry 8), an asserted RST holds the reset values (log entry 11),
SNAP's 0 among them (log entry 10). -/
def Obligations.EveryStepKeepsTheInvariant : Prop :=
  ∀ s t : State, s.Inv → step s = .next t → t.Inv ∧ t.cfg = s.cfg
end

