-- ==== Sys2Proof/Laws/Prime.lean ====
section
/-! SUPPORT. The field prime p and the group order n are prime (R18, R20), each with a Lucas certificate: a base whose order
is one less than the number, over the prime factors of that. -/

namespace Sys2Proof.Machine

/-- The square-and-multiply loop for `a^e mod m`, over bits `i - 1` down to 0 of e. -/
def powModLoop (a e m : Nat) : Nat → Nat → Nat
  | 0, acc => acc
  | i + 1, acc => powModLoop a e m i (if e.testBit i then acc * acc % m * a % m else acc * acc % m)

/-- `a^e mod m` for e below 2^256. -/
def powMod (a e m : Nat) : Nat := powModLoop a e m 256 1

theorem powModLoop_cast (a e m : Nat) : ∀ i acc : Nat, ((acc : ZMod m) = (a : ZMod m) ^ (e / 2 ^ i)) →
    (powModLoop a e m i acc : ZMod m) = (a : ZMod m) ^ e
  | 0, acc, h => by simpa [powModLoop] using h
  | i + 1, acc, h => by
    have hdiv : e / 2 ^ i = 2 * (e / 2 ^ (i + 1)) + (e / 2 ^ i) % 2 := by
      rw [pow_succ, ← Nat.div_div_eq_div_mul]; omega
    have hbit : e.testBit i = decide ((e / 2 ^ i) % 2 = 1) := by rw [Nat.testBit_eq_decide_div_mod_eq]
    refine powModLoop_cast a e m i _ ?_
    rw [hdiv, pow_add, pow_mul, hbit]
    rcases Nat.mod_two_eq_zero_or_one (e / 2 ^ i) with h0 | h1
    · simp [h0, h]; ring
    · simp [h1, h]; ring

theorem powMod_cast {e : Nat} (a m : Nat) (he : e < 2 ^ 256) : (powMod a e m : ZMod m) = (a : ZMod m) ^ e :=
  powModLoop_cast a e m 256 1 (by rw [Nat.div_eq_of_lt he]; simp)

/-- Lucas' test: every prime factor of `m - 1` is in the list, and a has order `m - 1` mod m. -/
theorem prime_of_certificate (m a : Nat) (fs : List Nat) (hm : 2 < m ∧ m ≤ 2 ^ 256) (hp : ∀ q ∈ fs, q.Prime)
    (hprod : fs.prod = m - 1) (ha : powMod a (m - 1) m = 1) (hne : ∀ q ∈ fs, powMod a ((m - 1) / q) m < m ∧
      powMod a ((m - 1) / q) m ≠ 1) : m.Prime := by
  have hcast : ∀ e, e < 2 ^ 256 → (powMod a e m : ZMod m) = (a : ZMod m) ^ e := fun e he => powMod_cast a m he
  refine lucas_primality m (a : ZMod m) ?_ ?_
  · rw [← hcast _ (by omega), ha, Nat.cast_one]
  · intro q hq hdvd h
    obtain ⟨f, hf, hqf⟩ := (Nat.Prime.prime hq).dvd_prod_iff.mp (hprod ▸ hdvd)
    obtain rfl := (Nat.prime_dvd_prime_iff_eq hq (hp f hf)).mp hqf
    obtain ⟨hlt, h1⟩ := hne q hf
    rw [← hcast _ (lt_of_le_of_lt (Nat.div_le_self _ _) (by omega))] at h
    have := (ZMod.natCast_eq_natCast_iff' _ 1 m).mp (by simpa using h)
    rw [Nat.mod_eq_of_lt hlt, Nat.mod_eq_of_lt (by omega)] at this
    exact h1 this

theorem prime_1206781 : Nat.Prime 1206781 :=
  prime_of_certificate 1206781 10 [2, 2, 3, 5, 20113] (by decide +kernel)
    (by simp only [List.forall_mem_cons, List.not_mem_nil, false_imp_iff, implies_true, and_true]
        exact ⟨by norm_num, by norm_num, by norm_num, by norm_num, by norm_num⟩)
    (by decide +kernel) (by decide +kernel) (by decide +kernel)

theorem prime_7240687 : Nat.Prime 7240687 :=
  prime_of_certificate 7240687 3 [2, 3, 1206781] (by decide +kernel)
    (by simp only [List.forall_mem_cons, List.not_mem_nil, false_imp_iff, implies_true, and_true]
        exact ⟨by norm_num, by norm_num, prime_1206781⟩)
    (by decide +kernel) (by decide +kernel) (by decide +kernel)

theorem prime_107590001 : Nat.Prime 107590001 :=
  prime_of_certificate 107590001 3 [2, 2, 2, 2, 5, 5, 5, 5, 7, 29, 53] (by decide +kernel)
    (by simp only [List.forall_mem_cons, List.not_mem_nil, false_imp_iff, implies_true, and_true]
        exact ⟨by norm_num, by norm_num, by norm_num, by norm_num, by norm_num, by norm_num, by norm_num, by norm_num, by norm_num, by norm_num, by norm_num⟩)
    (by decide +kernel) (by decide +kernel) (by decide +kernel)

theorem prime_255515944373312847190720520512484175977 : Nat.Prime 255515944373312847190720520512484175977 :=
  prime_of_certificate 255515944373312847190720520512484175977 3 [2, 2, 2, 7, 7, 11, 1627, 2657, 4423, 41201, 96557, 7240687, 107590001] (by decide +kernel)
    (by simp only [List.forall_mem_cons, List.not_mem_nil, false_imp_iff, implies_true, and_true]
        exact ⟨by norm_num, by norm_num, by norm_num, by norm_num, by norm_num, by norm_num, by norm_num, by norm_num, by norm_num, by norm_num, by norm_num, prime_7240687, prime_107590001⟩)
    (by decide +kernel) (by decide +kernel) (by decide +kernel)

theorem prime_13331831 : Nat.Prime 13331831 :=
  prime_of_certificate 13331831 13 [2, 5, 971, 1373] (by decide +kernel)
    (by simp only [List.forall_mem_cons, List.not_mem_nil, false_imp_iff, implies_true, and_true]
        exact ⟨by norm_num, by norm_num, by norm_num, by norm_num⟩)
    (by decide +kernel) (by decide +kernel) (by decide +kernel)

theorem prime_173378833005251801 : Nat.Prime 173378833005251801 :=
  prime_of_certificate 173378833005251801 6 [2, 2, 2, 5, 5, 2621, 24809, 13331831] (by decide +kernel)
    (by simp only [List.forall_mem_cons, List.not_mem_nil, false_imp_iff, implies_true, and_true]
        exact ⟨by norm_num, by norm_num, by norm_num, by norm_num, by norm_num, by norm_num, by norm_num, prime_13331831⟩)
    (by decide +kernel) (by decide +kernel) (by decide +kernel)

theorem prime_22149492674086928081353 : Nat.Prime 22149492674086928081353 :=
  prime_of_certificate 22149492674086928081353 5 [2, 2, 2, 3, 5323, 173378833005251801] (by decide +kernel)
    (by simp only [List.forall_mem_cons, List.not_mem_nil, false_imp_iff, implies_true, and_true]
        exact ⟨by norm_num, by norm_num, by norm_num, by norm_num, by norm_num, prime_173378833005251801⟩)
    (by decide +kernel) (by decide +kernel) (by decide +kernel)

theorem prime_132896956044521568488119 : Nat.Prime 132896956044521568488119 :=
  prime_of_certificate 132896956044521568488119 6 [2, 3, 22149492674086928081353] (by decide +kernel)
    (by simp only [List.forall_mem_cons, List.not_mem_nil, false_imp_iff, implies_true, and_true]
        exact ⟨by norm_num, by norm_num, prime_22149492674086928081353⟩)
    (by decide +kernel) (by decide +kernel) (by decide +kernel)

theorem prime_205115282021455665897114700593932402728804164701536103180137503955397371 : Nat.Prime 205115282021455665897114700593932402728804164701536103180137503955397371 :=
  prime_of_certificate 205115282021455665897114700593932402728804164701536103180137503955397371 10 [2, 3, 5, 29, 29, 31, 7723, 132896956044521568488119, 255515944373312847190720520512484175977] (by decide +kernel)
    (by simp only [List.forall_mem_cons, List.not_mem_nil, false_imp_iff, implies_true, and_true]
        exact ⟨by norm_num, by norm_num, by norm_num, by norm_num, by norm_num, by norm_num, by norm_num, prime_132896956044521568488119, prime_255515944373312847190720520512484175977⟩)
    (by decide +kernel) (by decide +kernel) (by decide +kernel)

theorem fieldPrime_prime : Nat.Prime fieldPrime :=
  prime_of_certificate fieldPrime 3 [2, 3, 7, 13441, 205115282021455665897114700593932402728804164701536103180137503955397371] (by decide +kernel)
    (by simp only [List.forall_mem_cons, List.not_mem_nil, false_imp_iff, implies_true, and_true]
        exact ⟨by norm_num, by norm_num, by norm_num, by norm_num, prime_205115282021455665897114700593932402728804164701536103180137503955397371⟩)
    (by decide +kernel) (by decide +kernel) (by decide +kernel)

theorem prime_44706919 : Nat.Prime 44706919 :=
  prime_of_certificate 44706919 6 [2, 3, 797, 9349] (by decide +kernel)
    (by simp only [List.forall_mem_cons, List.not_mem_nil, false_imp_iff, implies_true, and_true]
        exact ⟨by norm_num, by norm_num, by norm_num, by norm_num⟩)
    (by decide +kernel) (by decide +kernel) (by decide +kernel)

theorem prime_174723607534414371449 : Nat.Prime 174723607534414371449 :=
  prime_of_certificate 174723607534414371449 3 [2, 2, 2, 17, 59, 4051, 120233, 44706919] (by decide +kernel)
    (by simp only [List.forall_mem_cons, List.not_mem_nil, false_imp_iff, implies_true, and_true]
        exact ⟨by norm_num, by norm_num, by norm_num, by norm_num, by norm_num, by norm_num, by norm_num, prime_44706919⟩)
    (by decide +kernel) (by decide +kernel) (by decide +kernel)

theorem prime_4681609 : Nat.Prime 4681609 :=
  prime_of_certificate 4681609 23 [2, 2, 2, 3, 97, 2011] (by decide +kernel)
    (by simp only [List.forall_mem_cons, List.not_mem_nil, false_imp_iff, implies_true, and_true]
        exact ⟨by norm_num, by norm_num, by norm_num, by norm_num, by norm_num, by norm_num⟩)
    (by decide +kernel) (by decide +kernel) (by decide +kernel)

theorem prime_107361793816595537 : Nat.Prime 107361793816595537 :=
  prime_of_certificate 107361793816595537 3 [2, 2, 2, 2, 16699, 85831, 4681609] (by decide +kernel)
    (by simp only [List.forall_mem_cons, List.not_mem_nil, false_imp_iff, implies_true, and_true]
        exact ⟨by norm_num, by norm_num, by norm_num, by norm_num, by norm_num, by norm_num, prime_4681609⟩)
    (by decide +kernel) (by decide +kernel) (by decide +kernel)

theorem prime_305873 : Nat.Prime 305873 :=
  prime_of_certificate 305873 3 [2, 2, 2, 2, 7, 2731] (by decide +kernel)
    (by simp only [List.forall_mem_cons, List.not_mem_nil, false_imp_iff, implies_true, and_true]
        exact ⟨by norm_num, by norm_num, by norm_num, by norm_num, by norm_num, by norm_num⟩)
    (by decide +kernel) (by decide +kernel) (by decide +kernel)

theorem prime_1627771 : Nat.Prime 1627771 :=
  prime_of_certificate 1627771 3 [2, 3, 5, 29, 1871] (by decide +kernel)
    (by simp only [List.forall_mem_cons, List.not_mem_nil, false_imp_iff, implies_true, and_true]
        exact ⟨by norm_num, by norm_num, by norm_num, by norm_num, by norm_num⟩)
    (by decide +kernel) (by decide +kernel) (by decide +kernel)

theorem prime_297159362677 : Nat.Prime 297159362677 :=
  prime_of_certificate 297159362677 2 [2, 2, 3, 3, 11, 461, 1627771] (by decide +kernel)
    (by simp only [List.forall_mem_cons, List.not_mem_nil, false_imp_iff, implies_true, and_true]
        exact ⟨by norm_num, by norm_num, by norm_num, by norm_num, by norm_num, by norm_num, prime_1627771⟩)
    (by decide +kernel) (by decide +kernel) (by decide +kernel)

theorem prime_545358713 : Nat.Prime 545358713 :=
  prime_of_certificate 545358713 5 [2, 2, 2, 41, 59, 28181] (by decide +kernel)
    (by simp only [List.forall_mem_cons, List.not_mem_nil, false_imp_iff, implies_true, and_true]
        exact ⟨by norm_num, by norm_num, by norm_num, by norm_num, by norm_num, by norm_num⟩)
    (by decide +kernel) (by decide +kernel) (by decide +kernel)

theorem prime_29047611873442575647497758179 : Nat.Prime 29047611873442575647497758179 :=
  prime_of_certificate 29047611873442575647497758179 2 [2, 293, 305873, 545358713, 297159362677] (by decide +kernel)
    (by simp only [List.forall_mem_cons, List.not_mem_nil, false_imp_iff, implies_true, and_true]
        exact ⟨by norm_num, by norm_num, prime_305873, prime_545358713, prime_297159362677⟩)
    (by decide +kernel) (by decide +kernel) (by decide +kernel)

theorem prime_341948486974166000522343609283189 : Nat.Prime 341948486974166000522343609283189 :=
  prime_of_certificate 341948486974166000522343609283189 2 [2, 2, 3, 3, 3, 109, 29047611873442575647497758179] (by decide +kernel)
    (by simp only [List.forall_mem_cons, List.not_mem_nil, false_imp_iff, implies_true, and_true]
        exact ⟨by norm_num, by norm_num, by norm_num, by norm_num, by norm_num, by norm_num, prime_29047611873442575647497758179⟩)
    (by decide +kernel) (by decide +kernel) (by decide +kernel)

theorem groupOrder_prime : Nat.Prime groupOrder :=
  prime_of_certificate groupOrder 7 [2, 2, 2, 2, 2, 2, 3, 149, 631, 107361793816595537, 174723607534414371449, 341948486974166000522343609283189] (by decide +kernel)
    (by simp only [List.forall_mem_cons, List.not_mem_nil, false_imp_iff, implies_true, and_true]
        exact ⟨by norm_num, by norm_num, by norm_num, by norm_num, by norm_num, by norm_num, by norm_num, by norm_num, by norm_num, prime_107361793816595537, prime_174723607534414371449, prime_341948486974166000522343609283189⟩)
    (by decide +kernel) (by decide +kernel) (by decide +kernel)

end Sys2Proof.Machine
end

