-- ==== Sys2Proof/Laws/Arith.lean ====
section
/-! SUPPORT. What the modular arithmetic computes: `residue` is the non-negative residue and `inv` the modular inverse (R8),
both also read in `ZMod m`. -/

namespace Sys2Proof.Machine
@[simp] theorem residue_natCast (x m : Nat) : residue (x : Int) m = x % m := by
  rw [residue, ← Int.natCast_mod, Int.toNat_natCast]

/-- A residue lies below its modulus (R8). -/
theorem residue_lt (z : Int) {m : Nat} (hm : 0 < m) : residue z m < m := by
  have h0 := Int.emod_nonneg z (b := m) (by omega)
  have h1 := Int.emod_lt_of_pos z (b := m) (by omega)
  unfold residue
  omega

theorem residue_toInt (z : Int) {m : Nat} (hm : 0 < m) : ((residue z m : Nat) : Int) = z % m :=
  Int.toNat_of_nonneg (Int.emod_nonneg z (by omega))

/-- In `ZMod m` the residue of z is z. -/
theorem residue_cast (z : Int) {m : Nat} (hm : 0 < m) : ((residue z m : Nat) : ZMod m) = (z : ZMod m) := by
  rw [← Int.cast_natCast, residue_toInt z hm]
  simp

/-- A remainder is less than half of what is divided. -/
theorem two_mul_mod_lt {a b : Nat} (hb : 0 < b) (h : b ≤ a) : 2 * (a % b) < a := by
  have h1 := Nat.mod_lt a hb
  have h2 := Nat.div_add_mod a b
  have h3 : 1 ≤ a / b := Nat.div_pos h hb
  have : b ≤ b * (a / b) := Nat.le_mul_of_pos_right b h3
  omega

/-- The loop keeps `t0 * a = r0` and `t1 * a = r1` mod m, and 2k rounds are enough below 2^k. -/
theorem euclidLoop_spec {m : Nat} (hm : 0 < m) (a : Nat) : ∀ (k fuel r0 r1 t0 t1 : Nat), 2 * k ≤ fuel → r1 < 2 ^ k → r1 < r0 →
    t0 < m → t1 < m → ((t0 * a : Nat) : ZMod m) = r0 → ((t1 * a : Nat) : ZMod m) = r1 →
    euclidLoop m fuel r0 r1 t0 t1 < m ∧ ((euclidLoop m fuel r0 r1 t0 t1 * a : Nat) : ZMod m) = (Nat.gcd r0 r1 : Nat)
  | 0, fuel, r0, r1, t0, t1, _, hr, _, ht0, _, h0, _ => by
    obtain rfl : r1 = 0 := by simpa using hr
    have hl : euclidLoop m fuel r0 0 t0 t1 = t0 := by cases fuel <;> rfl
    rw [hl, Nat.gcd_zero_right]
    exact ⟨ht0, h0⟩
  | k + 1, fuel, r0, r1, t0, t1, hf, hr, hlt, ht0, ht1, h0, h1 => by
    have key : ∀ (x y u v : Nat), ((u * a : Nat) : ZMod m) = x → ((v * a : Nat) : ZMod m) = y →
        ((residue ((u : Int) - (x / y : Nat) * v) m * a : Nat) : ZMod m) = (x % y : Nat) := by
      intro x y u v hu hv
      rw [Nat.cast_mul, residue_cast _ hm]
      simp only [Int.cast_sub, Int.cast_mul, Int.cast_natCast]
      push_cast at hu hv
      have := congrArg (Nat.cast (R := ZMod m)) (Nat.div_add_mod x y)
      push_cast at this
      linear_combination hu - ((x / y : Nat) : ZMod m) * hv - this
    obtain ⟨fuel, rfl⟩ : ∃ f, fuel = f + 2 := ⟨fuel - 2, by omega⟩
    by_cases hz : r1 = 0
    · subst hz
      rw [Nat.gcd_zero_right]
      exact ⟨ht0, h0⟩
    rw [euclidLoop, if_neg hz]
    by_cases hz2 : r0 % r1 = 0
    · rw [euclidLoop, if_pos hz2]
      refine ⟨ht1, ?_⟩
      rw [h1, Nat.gcd_comm, Nat.gcd_rec, hz2]
      simp
    rw [euclidLoop, if_neg hz2]
    have hr2 : r0 % r1 < r1 := Nat.mod_lt _ (by omega)
    have hh := two_mul_mod_lt (by omega) hr2.le
    have := euclidLoop_spec hm a k fuel (r0 % r1) (r1 % (r0 % r1)) _ _ (by omega) (by rw [pow_succ] at hr; omega)
      (Nat.mod_lt _ (by omega)) (residue_lt _ hm) (residue_lt _ hm) (key r0 r1 t0 t1 h0 h1)
      (key r1 (r0 % r1) t1 _ h1 (key r0 r1 t0 t1 h0 h1))
    refine ⟨this.1, this.2.trans ?_⟩
    rw [Nat.gcd_comm r0 r1, Nat.gcd_rec r1 r0, Nat.gcd_comm _ (r1 % _), ← Nat.gcd_rec]

/-- `inv a m` is the inverse of a mod m (R8). -/
theorem inv_spec {a m : Nat} (hm : 1 < m) (hm2 : m < 2 ^ 256) (h : Nat.gcd (a % m) m = 1) :
    a * inv a m % m = 1 ∧ 0 < inv a m ∧ inv a m < m := by
  have := euclidLoop_spec (m := m) (by omega) a 256 514 m (a % m) 0 1 (by omega) (lt_trans (Nat.mod_lt _ (by omega)) hm2)
    (Nat.mod_lt _ (by omega)) (by omega) hm (by simp) (by simp)
  rw [Nat.gcd_comm, h] at this
  have h1 : a * inv a m % m = 1 := by
    have h2 := (ZMod.natCast_eq_natCast_iff' _ _ m).mp this.2
    rwa [Nat.mod_eq_of_lt hm, Nat.mul_comm] at h2
  refine ⟨h1, ?_, this.1⟩
  rcases Nat.eq_zero_or_pos (inv a m) with h0 | h0
  · simp [h0] at h1
  · exact h0

/-- For a prime modulus `inv` is the field's inverse. -/
theorem inv_cast {a m : Nat} [Fact m.Prime] (hm2 : m < 2 ^ 256) (h : a % m ≠ 0) :
    (inv a m : ZMod m) = (a : ZMod m)⁻¹ := by
  have hp : m.Prime := Fact.out
  have hg : Nat.gcd (a % m) m = 1 :=
    ((Nat.Prime.coprime_iff_not_dvd hp).mpr fun hd => h (Nat.eq_zero_of_dvd_of_lt hd (Nat.mod_lt _ hp.pos))).symm
  obtain ⟨h1, -, -⟩ := inv_spec hp.one_lt hm2 hg
  refine eq_inv_of_mul_eq_one_right ?_
  have := (ZMod.natCast_eq_natCast_iff' (a * inv a m) 1 m).mpr (by rw [h1, Nat.mod_eq_of_lt hp.one_lt])
  simpa using this

end Sys2Proof.Machine
end

