-- ==== Sys2Proof/Laws/Encoding.lean ====
section
/-! SUPPORT. A command word is its fields: packing and unpacking are inverse, masking works field by field, and the
index fields read back what was put in them. -/

namespace Sys2Proof

@[simp] theorem fieldsOf_pack (f : Fields) : fieldsOf (pack f) = f := by
  obtain ⟨opc, rd, ra, rb, rc, msel, gsel⟩ := f
  simp only [fieldsOf, pack, Fields.mk.injEq]
  refine ⟨?_, ?_, ?_, ?_, ?_, ?_, ?_⟩ <;>
  · ext i hi
    simp only [BitVec.getElem_extractLsb', BitVec.getLsbD_append]
    interval_cases i <;> simp

/-- A word whose reserved bits [31:26] are 0 is the pack of its fields. -/
theorem pack_fieldsOf {c : Bus} (h : c.extractLsb' 26 6 = 0#6) : pack (fieldsOf c) = c := by
  rw [pack, ← h]
  apply BitVec.eq_of_getLsbD_eq
  intro i hi
  simp only [fieldsOf, BitVec.getLsbD_append, BitVec.getLsbD_extractLsb']
  interval_cases i <;> simp

theorem pack_injective {f g : Fields} (h : pack f = pack g) : f = g := by
  rw [← fieldsOf_pack f, h, fieldsOf_pack]

/-- Each field masked. -/
def Fields.masked (f g : Fields) : Fields :=
  ⟨f.opc &&& g.opc, f.rd &&& g.rd, f.ra &&& g.ra, f.rb &&& g.rb, f.rc &&& g.rc, f.msel &&& g.msel, f.gsel &&& g.gsel⟩

/-- Masking a packed word with a packed mask masks each field. -/
theorem pack_and (f g : Fields) : pack f &&& pack g = pack (f.masked g) := by
  apply BitVec.eq_of_getLsbD_eq
  intro i hi
  simp only [pack, Fields.masked, BitVec.getLsbD_and, BitVec.getLsbD_append]
  split_ifs <;> simp

/-- The reserved bits of a packed word are 0. -/
theorem pack_and_reserved (f : Fields) : pack f &&& 0xFC000000#32 = 0#32 := by
  apply BitVec.eq_of_getLsbD_eq
  intro i hi
  simp only [pack, BitVec.getLsbD_and, BitVec.getLsbD_append]
  interval_cases i <;> simp

/-- A packed word spells a row exactly when its masked fields are the row's. -/
theorem spells_pack {r : Row} {mask bits : Fields} (hm : r.mask = 0xFC000000#32 ||| pack mask) (hb : r.bits = pack bits)
    (f : Fields) : r.spells (pack f) = true ↔ f.masked mask = bits := by
  rw [Row.spells, hm, hb, beq_iff_eq, BitVec.and_or_distrib_left, pack_and_reserved, BitVec.zero_or, pack_and]
  exact ⟨pack_injective, congrArg pack⟩

@[simp] theorem wIdxOf_wField (i : WIdx) : wIdxOf (wField i) = i := rfl

@[simp] theorem wField_wIdxOf (f : BitVec 4) : wField (wIdxOf f) = f := rfl

@[simp] theorem pIdxOf_pField (j : PIdx) : pIdxOf (pField j) = j := by revert j; decide

/-- Bit 3 of a point field is clear (R72). -/
@[simp] theorem pField_and_eight (j : PIdx) : pField j &&& 8#4 = 0#4 := by revert j; decide

theorem pField_pIdxOf {f : BitVec 4} (h : f &&& 8#4 = 0#4) : pField (pIdxOf f) = f := by revert f; decide

@[simp] theorem modulusOf_mselOf (m : Modulus) : modulusOf (mselOf m) = m := by cases m <;> decide

@[simp] theorem mselOf_modulusOf (b : BitVec 1) : mselOf (modulusOf b) = b := by revert b; decide

@[simp] theorem wField_inj {i j : WIdx} : wField i = wField j ↔ i = j :=
  ⟨fun h => by simpa using congrArg wIdxOf h, fun h => by rw [h]⟩

end Sys2Proof
end

