-- ==== Sys2Proof/Laws/State.lean ====
section
/-! SUPPORT. What each named update does to each field of the state, so that no proof unfolds a record update. -/

namespace Sys2Proof.Machine

/-! What a scalar write (R25) does to each field. -/

@[simp] theorem State.putW_w (s : State) (i : WIdx) (v : Word) : (s.putW i v).w = s.w.set i v := rfl
@[simp] theorem State.putW_valid (s : State) (i : WIdx) (v : Word) : (s.putW i v).valid = setBit s.valid i.val := rfl
@[simp] theorem State.putW_pinf (s : State) (i : WIdx) (v : Word) : (s.putW i v).pinf = clearBit s.pinf (pairOf i).val := rfl
@[simp] theorem State.putW_ie (s : State) (i : WIdx) (v : Word) : (s.putW i v).ie = s.ie := rfl
@[simp] theorem State.putW_done (s : State) (i : WIdx) (v : Word) : (s.putW i v).done = s.done := rfl
@[simp] theorem State.putW_ovr (s : State) (i : WIdx) (v : Word) : (s.putW i v).ovr = s.ovr := rfl
@[simp] theorem State.putW_errCode (s : State) (i : WIdx) (v : Word) : (s.putW i v).errCode = s.errCode := rfl
@[simp] theorem State.putW_cur (s : State) (i : WIdx) (v : Word) : (s.putW i v).cur = s.cur := rfl
@[simp] theorem State.putW_msgLen (s : State) (i : WIdx) (v : Word) : (s.putW i v).msgLen = s.msgLen := rfl
@[simp] theorem State.putW_derLen (s : State) (i : WIdx) (v : Word) : (s.putW i v).derLen = s.derLen := rfl
@[simp] theorem State.putW_derBuf (s : State) (i : WIdx) (v : Word) : (s.putW i v).derBuf = s.derBuf := rfl
@[simp] theorem State.putW_signDraws (s : State) (i : WIdx) (v : Word) : (s.putW i v).signDraws = s.signDraws := rfl
@[simp] theorem State.putW_eng (s : State) (i : WIdx) (v : Word) : (s.putW i v).eng = s.eng := rfl
@[simp] theorem State.putW_attempts (s : State) (i : WIdx) (v : Word) : (s.putW i v).attempts = s.attempts := rfl
@[simp] theorem State.putW_snap (s : State) (i : WIdx) (v : Word) : (s.putW i v).snap = s.snap := rfl
@[simp] theorem State.putW_entReq (s : State) (i : WIdx) (v : Word) : (s.putW i v).entReq = s.entReq := rfl
@[simp] theorem State.putW_draw (s : State) (i : WIdx) (v : Word) : (s.putW i v).draw = s.draw := rfl
@[simp] theorem State.putW_rst (s : State) (i : WIdx) (v : Word) : (s.putW i v).rst = s.rst := rfl
@[simp] theorem State.putW_cfg (s : State) (i : WIdx) (v : Word) : (s.putW i v).cfg = s.cfg := rfl
@[simp] theorem State.putW_agenda (s : State) (i : WIdx) (v : Word) : (s.putW i v).agenda = s.agenda := rfl
@[simp] theorem State.putW_resp (s : State) (i : WIdx) (v : Word) : (s.putW i v).resp = s.resp := rfl
@[simp] theorem State.putW_freeCount (s : State) (i : WIdx) (v : Word) : (s.putW i v).freeCount = s.freeCount := rfl

/-! What a point write (R25) does to each field. -/

@[simp] theorem State.putPt_w (s : State) (j : PIdx) (q : Point) : (s.putPt j q).w = (s.w.set (xReg j) (pairValue q).1).set (yReg j) (pairValue q).2.1 := rfl
@[simp] theorem State.putPt_valid (s : State) (j : PIdx) (q : Point) : (s.putPt j q).valid = setBit (setBit s.valid (xReg j).val) (yReg j).val := rfl
@[simp] theorem State.putPt_pinf (s : State) (j : PIdx) (q : Point) : (s.putPt j q).pinf = putBit s.pinf j.val (pairValue q).2.2 := rfl
@[simp] theorem State.putPt_ie (s : State) (j : PIdx) (q : Point) : (s.putPt j q).ie = s.ie := rfl
@[simp] theorem State.putPt_done (s : State) (j : PIdx) (q : Point) : (s.putPt j q).done = s.done := rfl
@[simp] theorem State.putPt_ovr (s : State) (j : PIdx) (q : Point) : (s.putPt j q).ovr = s.ovr := rfl
@[simp] theorem State.putPt_errCode (s : State) (j : PIdx) (q : Point) : (s.putPt j q).errCode = s.errCode := rfl
@[simp] theorem State.putPt_cur (s : State) (j : PIdx) (q : Point) : (s.putPt j q).cur = s.cur := rfl
@[simp] theorem State.putPt_msgLen (s : State) (j : PIdx) (q : Point) : (s.putPt j q).msgLen = s.msgLen := rfl
@[simp] theorem State.putPt_derLen (s : State) (j : PIdx) (q : Point) : (s.putPt j q).derLen = s.derLen := rfl
@[simp] theorem State.putPt_derBuf (s : State) (j : PIdx) (q : Point) : (s.putPt j q).derBuf = s.derBuf := rfl
@[simp] theorem State.putPt_signDraws (s : State) (j : PIdx) (q : Point) : (s.putPt j q).signDraws = s.signDraws := rfl
@[simp] theorem State.putPt_eng (s : State) (j : PIdx) (q : Point) : (s.putPt j q).eng = s.eng := rfl
@[simp] theorem State.putPt_attempts (s : State) (j : PIdx) (q : Point) : (s.putPt j q).attempts = s.attempts := rfl
@[simp] theorem State.putPt_snap (s : State) (j : PIdx) (q : Point) : (s.putPt j q).snap = s.snap := rfl
@[simp] theorem State.putPt_entReq (s : State) (j : PIdx) (q : Point) : (s.putPt j q).entReq = s.entReq := rfl
@[simp] theorem State.putPt_draw (s : State) (j : PIdx) (q : Point) : (s.putPt j q).draw = s.draw := rfl
@[simp] theorem State.putPt_rst (s : State) (j : PIdx) (q : Point) : (s.putPt j q).rst = s.rst := rfl
@[simp] theorem State.putPt_cfg (s : State) (j : PIdx) (q : Point) : (s.putPt j q).cfg = s.cfg := rfl
@[simp] theorem State.putPt_agenda (s : State) (j : PIdx) (q : Point) : (s.putPt j q).agenda = s.agenda := rfl
@[simp] theorem State.putPt_resp (s : State) (j : PIdx) (q : Point) : (s.putPt j q).resp = s.resp := rfl
@[simp] theorem State.putPt_freeCount (s : State) (j : PIdx) (q : Point) : (s.putPt j q).freeCount = s.freeCount := rfl

/-! What a DER result (R138) does to each field. -/

@[simp] theorem State.putDer_w (s : State) (bs : List Byte) : (s.putDer bs).w = s.w := rfl
@[simp] theorem State.putDer_valid (s : State) (bs : List Byte) : (s.putDer bs).valid = s.valid := rfl
@[simp] theorem State.putDer_pinf (s : State) (bs : List Byte) : (s.putDer bs).pinf = s.pinf := rfl
@[simp] theorem State.putDer_ie (s : State) (bs : List Byte) : (s.putDer bs).ie = s.ie := rfl
@[simp] theorem State.putDer_done (s : State) (bs : List Byte) : (s.putDer bs).done = s.done := rfl
@[simp] theorem State.putDer_ovr (s : State) (bs : List Byte) : (s.putDer bs).ovr = s.ovr := rfl
@[simp] theorem State.putDer_errCode (s : State) (bs : List Byte) : (s.putDer bs).errCode = s.errCode := rfl
@[simp] theorem State.putDer_cur (s : State) (bs : List Byte) : (s.putDer bs).cur = s.cur := rfl
@[simp] theorem State.putDer_msgLen (s : State) (bs : List Byte) : (s.putDer bs).msgLen = s.msgLen := rfl
@[simp] theorem State.putDer_derLen (s : State) (bs : List Byte) : (s.putDer bs).derLen = BitVec.ofNat 7 bs.length := rfl
@[simp] theorem State.putDer_derBuf (s : State) (bs : List Byte) : (s.putDer bs).derBuf = Vector.ofFn fun b : Fin 72 => bs.getD b.val 0#8 := rfl
@[simp] theorem State.putDer_signDraws (s : State) (bs : List Byte) : (s.putDer bs).signDraws = s.signDraws := rfl
@[simp] theorem State.putDer_eng (s : State) (bs : List Byte) : (s.putDer bs).eng = s.eng := rfl
@[simp] theorem State.putDer_attempts (s : State) (bs : List Byte) : (s.putDer bs).attempts = s.attempts := rfl
@[simp] theorem State.putDer_snap (s : State) (bs : List Byte) : (s.putDer bs).snap = s.snap := rfl
@[simp] theorem State.putDer_entReq (s : State) (bs : List Byte) : (s.putDer bs).entReq = s.entReq := rfl
@[simp] theorem State.putDer_draw (s : State) (bs : List Byte) : (s.putDer bs).draw = s.draw := rfl
@[simp] theorem State.putDer_rst (s : State) (bs : List Byte) : (s.putDer bs).rst = s.rst := rfl
@[simp] theorem State.putDer_cfg (s : State) (bs : List Byte) : (s.putDer bs).cfg = s.cfg := rfl
@[simp] theorem State.putDer_agenda (s : State) (bs : List Byte) : (s.putDer bs).agenda = s.agenda := rfl
@[simp] theorem State.putDer_resp (s : State) (bs : List Byte) : (s.putDer bs).resp = s.resp := rfl
@[simp] theorem State.putDer_freeCount (s : State) (bs : List Byte) : (s.putDer bs).freeCount = s.freeCount := rfl

/-! What SIGN_DRAWS (R34) does to each field. -/

@[simp] theorem State.putDraws_w (s : State) (k : Nat) : (s.putDraws k).w = s.w := rfl
@[simp] theorem State.putDraws_valid (s : State) (k : Nat) : (s.putDraws k).valid = s.valid := rfl
@[simp] theorem State.putDraws_pinf (s : State) (k : Nat) : (s.putDraws k).pinf = s.pinf := rfl
@[simp] theorem State.putDraws_ie (s : State) (k : Nat) : (s.putDraws k).ie = s.ie := rfl
@[simp] theorem State.putDraws_done (s : State) (k : Nat) : (s.putDraws k).done = s.done := rfl
@[simp] theorem State.putDraws_ovr (s : State) (k : Nat) : (s.putDraws k).ovr = s.ovr := rfl
@[simp] theorem State.putDraws_errCode (s : State) (k : Nat) : (s.putDraws k).errCode = s.errCode := rfl
@[simp] theorem State.putDraws_cur (s : State) (k : Nat) : (s.putDraws k).cur = s.cur := rfl
@[simp] theorem State.putDraws_msgLen (s : State) (k : Nat) : (s.putDraws k).msgLen = s.msgLen := rfl
@[simp] theorem State.putDraws_derLen (s : State) (k : Nat) : (s.putDraws k).derLen = s.derLen := rfl
@[simp] theorem State.putDraws_derBuf (s : State) (k : Nat) : (s.putDraws k).derBuf = s.derBuf := rfl
@[simp] theorem State.putDraws_signDraws (s : State) (k : Nat) : (s.putDraws k).signDraws = BitVec.ofNat 32 k := rfl
@[simp] theorem State.putDraws_eng (s : State) (k : Nat) : (s.putDraws k).eng = s.eng := rfl
@[simp] theorem State.putDraws_attempts (s : State) (k : Nat) : (s.putDraws k).attempts = s.attempts := rfl
@[simp] theorem State.putDraws_snap (s : State) (k : Nat) : (s.putDraws k).snap = s.snap := rfl
@[simp] theorem State.putDraws_entReq (s : State) (k : Nat) : (s.putDraws k).entReq = s.entReq := rfl
@[simp] theorem State.putDraws_draw (s : State) (k : Nat) : (s.putDraws k).draw = s.draw := rfl
@[simp] theorem State.putDraws_rst (s : State) (k : Nat) : (s.putDraws k).rst = s.rst := rfl
@[simp] theorem State.putDraws_cfg (s : State) (k : Nat) : (s.putDraws k).cfg = s.cfg := rfl
@[simp] theorem State.putDraws_agenda (s : State) (k : Nat) : (s.putDraws k).agenda = s.agenda := rfl
@[simp] theorem State.putDraws_resp (s : State) (k : Nat) : (s.putDraws k).resp = s.resp := rfl
@[simp] theorem State.putDraws_freeCount (s : State) (k : Nat) : (s.putDraws k).freeCount = s.freeCount := rfl

/-! What completion (R95) does to each field. -/

@[simp] theorem State.complete_w (s : State) (code : ErrCode) : (s.complete code).w = s.w := rfl
@[simp] theorem State.complete_valid (s : State) (code : ErrCode) : (s.complete code).valid = s.valid := rfl
@[simp] theorem State.complete_pinf (s : State) (code : ErrCode) : (s.complete code).pinf = s.pinf := rfl
@[simp] theorem State.complete_ie (s : State) (code : ErrCode) : (s.complete code).ie = s.ie := rfl
@[simp] theorem State.complete_done (s : State) (code : ErrCode) : (s.complete code).done = true := rfl
@[simp] theorem State.complete_ovr (s : State) (code : ErrCode) : (s.complete code).ovr = s.ovr := rfl
@[simp] theorem State.complete_errCode (s : State) (code : ErrCode) : (s.complete code).errCode = code := rfl
@[simp] theorem State.complete_cur (s : State) (code : ErrCode) : (s.complete code).cur = s.cur := rfl
@[simp] theorem State.complete_msgLen (s : State) (code : ErrCode) : (s.complete code).msgLen = s.msgLen := rfl
@[simp] theorem State.complete_derLen (s : State) (code : ErrCode) : (s.complete code).derLen = s.derLen := rfl
@[simp] theorem State.complete_derBuf (s : State) (code : ErrCode) : (s.complete code).derBuf = s.derBuf := rfl
@[simp] theorem State.complete_signDraws (s : State) (code : ErrCode) : (s.complete code).signDraws = s.signDraws := rfl
@[simp] theorem State.complete_eng (s : State) (code : ErrCode) : (s.complete code).eng = .idle := rfl
@[simp] theorem State.complete_attempts (s : State) (code : ErrCode) : (s.complete code).attempts = s.attempts := rfl
@[simp] theorem State.complete_snap (s : State) (code : ErrCode) : (s.complete code).snap = s.snap := rfl
@[simp] theorem State.complete_entReq (s : State) (code : ErrCode) : (s.complete code).entReq = false := rfl
@[simp] theorem State.complete_draw (s : State) (code : ErrCode) : (s.complete code).draw = s.draw := rfl
@[simp] theorem State.complete_rst (s : State) (code : ErrCode) : (s.complete code).rst = s.rst := rfl
@[simp] theorem State.complete_cfg (s : State) (code : ErrCode) : (s.complete code).cfg = s.cfg := rfl
@[simp] theorem State.complete_agenda (s : State) (code : ErrCode) : (s.complete code).agenda = s.agenda := rfl
@[simp] theorem State.complete_resp (s : State) (code : ErrCode) : (s.complete code).resp = s.resp := rfl
@[simp] theorem State.complete_freeCount (s : State) (code : ErrCode) : (s.complete code).freeCount = s.freeCount := rfl

/-! What an error (R94) does to each field. -/

@[simp] theorem State.raise_w (s : State) (code : ErrCode) : (s.raise code).w = s.w := rfl
@[simp] theorem State.raise_valid (s : State) (code : ErrCode) : (s.raise code).valid = s.valid := rfl
@[simp] theorem State.raise_pinf (s : State) (code : ErrCode) : (s.raise code).pinf = s.pinf := rfl
@[simp] theorem State.raise_ie (s : State) (code : ErrCode) : (s.raise code).ie = s.ie := rfl
@[simp] theorem State.raise_done (s : State) (code : ErrCode) : (s.raise code).done = true := rfl
@[simp] theorem State.raise_ovr (s : State) (code : ErrCode) : (s.raise code).ovr = s.ovr := rfl
@[simp] theorem State.raise_errCode (s : State) (code : ErrCode) : (s.raise code).errCode = code := rfl
@[simp] theorem State.raise_cur (s : State) (code : ErrCode) : (s.raise code).cur = s.cur := rfl
@[simp] theorem State.raise_msgLen (s : State) (code : ErrCode) : (s.raise code).msgLen = s.msgLen := rfl
@[simp] theorem State.raise_derLen (s : State) (code : ErrCode) : (s.raise code).derLen = s.derLen := rfl
@[simp] theorem State.raise_derBuf (s : State) (code : ErrCode) : (s.raise code).derBuf = s.derBuf := rfl
@[simp] theorem State.raise_signDraws (s : State) (code : ErrCode) : (s.raise code).signDraws = s.signDraws := rfl
@[simp] theorem State.raise_eng (s : State) (code : ErrCode) : (s.raise code).eng = .idle := rfl
@[simp] theorem State.raise_attempts (s : State) (code : ErrCode) : (s.raise code).attempts = s.attempts := rfl
@[simp] theorem State.raise_snap (s : State) (code : ErrCode) : (s.raise code).snap = s.snap := rfl
@[simp] theorem State.raise_entReq (s : State) (code : ErrCode) : (s.raise code).entReq = false := rfl
@[simp] theorem State.raise_draw (s : State) (code : ErrCode) : (s.raise code).draw = s.draw := rfl
@[simp] theorem State.raise_rst (s : State) (code : ErrCode) : (s.raise code).rst = s.rst := rfl
@[simp] theorem State.raise_cfg (s : State) (code : ErrCode) : (s.raise code).cfg = s.cfg := rfl
@[simp] theorem State.raise_agenda (s : State) (code : ErrCode) : (s.raise code).agenda = s.agenda := rfl
@[simp] theorem State.raise_resp (s : State) (code : ErrCode) : (s.raise code).resp = s.resp := rfl
@[simp] theorem State.raise_freeCount (s : State) (code : ErrCode) : (s.raise code).freeCount = s.freeCount := rfl

/-! What a SIGN's error (R94) does to each field. -/

@[simp] theorem State.raiseSign_w (s : State) (code : ErrCode) (k : Nat) : (s.raiseSign code k).w = s.w := rfl
@[simp] theorem State.raiseSign_valid (s : State) (code : ErrCode) (k : Nat) : (s.raiseSign code k).valid = s.valid := rfl
@[simp] theorem State.raiseSign_pinf (s : State) (code : ErrCode) (k : Nat) : (s.raiseSign code k).pinf = s.pinf := rfl
@[simp] theorem State.raiseSign_ie (s : State) (code : ErrCode) (k : Nat) : (s.raiseSign code k).ie = s.ie := rfl
@[simp] theorem State.raiseSign_done (s : State) (code : ErrCode) (k : Nat) : (s.raiseSign code k).done = true := rfl
@[simp] theorem State.raiseSign_ovr (s : State) (code : ErrCode) (k : Nat) : (s.raiseSign code k).ovr = s.ovr := rfl
@[simp] theorem State.raiseSign_errCode (s : State) (code : ErrCode) (k : Nat) : (s.raiseSign code k).errCode = code := rfl
@[simp] theorem State.raiseSign_cur (s : State) (code : ErrCode) (k : Nat) : (s.raiseSign code k).cur = s.cur := rfl
@[simp] theorem State.raiseSign_msgLen (s : State) (code : ErrCode) (k : Nat) : (s.raiseSign code k).msgLen = s.msgLen := rfl
@[simp] theorem State.raiseSign_derLen (s : State) (code : ErrCode) (k : Nat) : (s.raiseSign code k).derLen = s.derLen := rfl
@[simp] theorem State.raiseSign_derBuf (s : State) (code : ErrCode) (k : Nat) : (s.raiseSign code k).derBuf = s.derBuf := rfl
@[simp] theorem State.raiseSign_signDraws (s : State) (code : ErrCode) (k : Nat) : (s.raiseSign code k).signDraws = BitVec.ofNat 32 k := rfl
@[simp] theorem State.raiseSign_eng (s : State) (code : ErrCode) (k : Nat) : (s.raiseSign code k).eng = .idle := rfl
@[simp] theorem State.raiseSign_attempts (s : State) (code : ErrCode) (k : Nat) : (s.raiseSign code k).attempts = s.attempts := rfl
@[simp] theorem State.raiseSign_snap (s : State) (code : ErrCode) (k : Nat) : (s.raiseSign code k).snap = s.snap := rfl
@[simp] theorem State.raiseSign_entReq (s : State) (code : ErrCode) (k : Nat) : (s.raiseSign code k).entReq = false := rfl
@[simp] theorem State.raiseSign_draw (s : State) (code : ErrCode) (k : Nat) : (s.raiseSign code k).draw = s.draw := rfl
@[simp] theorem State.raiseSign_rst (s : State) (code : ErrCode) (k : Nat) : (s.raiseSign code k).rst = s.rst := rfl
@[simp] theorem State.raiseSign_cfg (s : State) (code : ErrCode) (k : Nat) : (s.raiseSign code k).cfg = s.cfg := rfl
@[simp] theorem State.raiseSign_agenda (s : State) (code : ErrCode) (k : Nat) : (s.raiseSign code k).agenda = s.agenda := rfl
@[simp] theorem State.raiseSign_resp (s : State) (code : ErrCode) (k : Nat) : (s.raiseSign code k).resp = s.resp := rfl
@[simp] theorem State.raiseSign_freeCount (s : State) (code : ErrCode) (k : Nat) : (s.raiseSign code k).freeCount = s.freeCount := rfl

/-! What acknowledgement (R150) does to each field. -/

@[simp] theorem State.acknowledge_w (s : State) : s.acknowledge.w = s.w := rfl
@[simp] theorem State.acknowledge_valid (s : State) : s.acknowledge.valid = s.valid := rfl
@[simp] theorem State.acknowledge_pinf (s : State) : s.acknowledge.pinf = s.pinf := rfl
@[simp] theorem State.acknowledge_ie (s : State) : s.acknowledge.ie = s.ie := rfl
@[simp] theorem State.acknowledge_done (s : State) : s.acknowledge.done = false := rfl
@[simp] theorem State.acknowledge_ovr (s : State) : s.acknowledge.ovr = s.ovr := rfl
@[simp] theorem State.acknowledge_errCode (s : State) : s.acknowledge.errCode = s.errCode := rfl
@[simp] theorem State.acknowledge_cur (s : State) : s.acknowledge.cur = s.cur := rfl
@[simp] theorem State.acknowledge_msgLen (s : State) : s.acknowledge.msgLen = s.msgLen := rfl
@[simp] theorem State.acknowledge_derLen (s : State) : s.acknowledge.derLen = s.derLen := rfl
@[simp] theorem State.acknowledge_derBuf (s : State) : s.acknowledge.derBuf = s.derBuf := rfl
@[simp] theorem State.acknowledge_signDraws (s : State) : s.acknowledge.signDraws = s.signDraws := rfl
@[simp] theorem State.acknowledge_eng (s : State) : s.acknowledge.eng = s.eng := rfl
@[simp] theorem State.acknowledge_attempts (s : State) : s.acknowledge.attempts = s.attempts := rfl
@[simp] theorem State.acknowledge_snap (s : State) : s.acknowledge.snap = s.snap := rfl
@[simp] theorem State.acknowledge_entReq (s : State) : s.acknowledge.entReq = s.entReq := rfl
@[simp] theorem State.acknowledge_draw (s : State) : s.acknowledge.draw = s.draw := rfl
@[simp] theorem State.acknowledge_rst (s : State) : s.acknowledge.rst = s.rst := rfl
@[simp] theorem State.acknowledge_cfg (s : State) : s.acknowledge.cfg = s.cfg := rfl
@[simp] theorem State.acknowledge_agenda (s : State) : s.acknowledge.agenda = s.agenda := rfl
@[simp] theorem State.acknowledge_resp (s : State) : s.acknowledge.resp = s.resp := rfl
@[simp] theorem State.acknowledge_freeCount (s : State) : s.acknowledge.freeCount = s.freeCount := rfl

/-! What issue (R86) does to each field. -/

@[simp] theorem State.issue_w (s : State) (v : Bus) : (s.issue v).w = s.w := rfl
@[simp] theorem State.issue_valid (s : State) (v : Bus) : (s.issue v).valid = s.valid := rfl
@[simp] theorem State.issue_pinf (s : State) (v : Bus) : (s.issue v).pinf = s.pinf := rfl
@[simp] theorem State.issue_ie (s : State) (v : Bus) : (s.issue v).ie = s.ie := rfl
@[simp] theorem State.issue_done (s : State) (v : Bus) : (s.issue v).done = false := rfl
@[simp] theorem State.issue_ovr (s : State) (v : Bus) : (s.issue v).ovr = s.ovr := rfl
@[simp] theorem State.issue_errCode (s : State) (v : Bus) : (s.issue v).errCode = .none := rfl
@[simp] theorem State.issue_cur (s : State) (v : Bus) : (s.issue v).cur = v := rfl
@[simp] theorem State.issue_msgLen (s : State) (v : Bus) : (s.issue v).msgLen = s.msgLen := rfl
@[simp] theorem State.issue_derLen (s : State) (v : Bus) : (s.issue v).derLen = s.derLen := rfl
@[simp] theorem State.issue_derBuf (s : State) (v : Bus) : (s.issue v).derBuf = s.derBuf := rfl
@[simp] theorem State.issue_signDraws (s : State) (v : Bus) : (s.issue v).signDraws = s.signDraws := rfl
@[simp] theorem State.issue_eng (s : State) (v : Bus) : (s.issue v).eng = .run := rfl
@[simp] theorem State.issue_attempts (s : State) (v : Bus) : (s.issue v).attempts = 0 := rfl
@[simp] theorem State.issue_snap (s : State) (v : Bus) : (s.issue v).snap = s.snap := rfl
@[simp] theorem State.issue_entReq (s : State) (v : Bus) : (s.issue v).entReq = s.entReq := rfl
@[simp] theorem State.issue_draw (s : State) (v : Bus) : (s.issue v).draw = s.draw := rfl
@[simp] theorem State.issue_rst (s : State) (v : Bus) : (s.issue v).rst = s.rst := rfl
@[simp] theorem State.issue_cfg (s : State) (v : Bus) : (s.issue v).cfg = s.cfg := rfl
@[simp] theorem State.issue_agenda (s : State) (v : Bus) : (s.issue v).agenda = s.agenda := rfl
@[simp] theorem State.issue_resp (s : State) (v : Bus) : (s.issue v).resp = s.resp := rfl
@[simp] theorem State.issue_freeCount (s : State) (v : Bus) : (s.issue v).freeCount = s.freeCount := rfl

/-! What a request for a draw (R66) does to each field. -/

@[simp] theorem State.requestDraw_w (s : State) : s.requestDraw.w = s.w := rfl
@[simp] theorem State.requestDraw_valid (s : State) : s.requestDraw.valid = s.valid := rfl
@[simp] theorem State.requestDraw_pinf (s : State) : s.requestDraw.pinf = s.pinf := rfl
@[simp] theorem State.requestDraw_ie (s : State) : s.requestDraw.ie = s.ie := rfl
@[simp] theorem State.requestDraw_done (s : State) : s.requestDraw.done = s.done := rfl
@[simp] theorem State.requestDraw_ovr (s : State) : s.requestDraw.ovr = s.ovr := rfl
@[simp] theorem State.requestDraw_errCode (s : State) : s.requestDraw.errCode = s.errCode := rfl
@[simp] theorem State.requestDraw_cur (s : State) : s.requestDraw.cur = s.cur := rfl
@[simp] theorem State.requestDraw_msgLen (s : State) : s.requestDraw.msgLen = s.msgLen := rfl
@[simp] theorem State.requestDraw_derLen (s : State) : s.requestDraw.derLen = s.derLen := rfl
@[simp] theorem State.requestDraw_derBuf (s : State) : s.requestDraw.derBuf = s.derBuf := rfl
@[simp] theorem State.requestDraw_signDraws (s : State) : s.requestDraw.signDraws = s.signDraws := rfl
@[simp] theorem State.requestDraw_eng (s : State) : s.requestDraw.eng = .waitEntropy := rfl
@[simp] theorem State.requestDraw_attempts (s : State) : s.requestDraw.attempts = s.attempts := rfl
@[simp] theorem State.requestDraw_snap (s : State) : s.requestDraw.snap = s.snap := rfl
@[simp] theorem State.requestDraw_entReq (s : State) : s.requestDraw.entReq = true := rfl
@[simp] theorem State.requestDraw_draw (s : State) : s.requestDraw.draw = s.draw := rfl
@[simp] theorem State.requestDraw_rst (s : State) : s.requestDraw.rst = s.rst := rfl
@[simp] theorem State.requestDraw_cfg (s : State) : s.requestDraw.cfg = s.cfg := rfl
@[simp] theorem State.requestDraw_agenda (s : State) : s.requestDraw.agenda = s.agenda := rfl
@[simp] theorem State.requestDraw_resp (s : State) : s.requestDraw.resp = s.resp := rfl
@[simp] theorem State.requestDraw_freeCount (s : State) : s.requestDraw.freeCount = s.freeCount := rfl

/-! What the taking of a draw (R126) does to each field. -/

@[simp] theorem State.takeDraw_w (s : State) : s.takeDraw.w = s.w := rfl
@[simp] theorem State.takeDraw_valid (s : State) : s.takeDraw.valid = s.valid := rfl
@[simp] theorem State.takeDraw_pinf (s : State) : s.takeDraw.pinf = s.pinf := rfl
@[simp] theorem State.takeDraw_ie (s : State) : s.takeDraw.ie = s.ie := rfl
@[simp] theorem State.takeDraw_done (s : State) : s.takeDraw.done = s.done := rfl
@[simp] theorem State.takeDraw_ovr (s : State) : s.takeDraw.ovr = s.ovr := rfl
@[simp] theorem State.takeDraw_errCode (s : State) : s.takeDraw.errCode = s.errCode := rfl
@[simp] theorem State.takeDraw_cur (s : State) : s.takeDraw.cur = s.cur := rfl
@[simp] theorem State.takeDraw_msgLen (s : State) : s.takeDraw.msgLen = s.msgLen := rfl
@[simp] theorem State.takeDraw_derLen (s : State) : s.takeDraw.derLen = s.derLen := rfl
@[simp] theorem State.takeDraw_derBuf (s : State) : s.takeDraw.derBuf = s.derBuf := rfl
@[simp] theorem State.takeDraw_signDraws (s : State) : s.takeDraw.signDraws = s.signDraws := rfl
@[simp] theorem State.takeDraw_eng (s : State) : s.takeDraw.eng = s.eng := rfl
@[simp] theorem State.takeDraw_attempts (s : State) : s.takeDraw.attempts = s.attempts + 1 := rfl
@[simp] theorem State.takeDraw_snap (s : State) : s.takeDraw.snap = s.snap := rfl
@[simp] theorem State.takeDraw_entReq (s : State) : s.takeDraw.entReq = s.entReq := rfl
@[simp] theorem State.takeDraw_draw (s : State) : s.takeDraw.draw = none := rfl
@[simp] theorem State.takeDraw_rst (s : State) : s.takeDraw.rst = s.rst := rfl
@[simp] theorem State.takeDraw_cfg (s : State) : s.takeDraw.cfg = s.cfg := rfl
@[simp] theorem State.takeDraw_agenda (s : State) : s.takeDraw.agenda = s.agenda := rfl
@[simp] theorem State.takeDraw_resp (s : State) : s.takeDraw.resp = s.resp := rfl
@[simp] theorem State.takeDraw_freeCount (s : State) : s.takeDraw.freeCount = s.freeCount := rfl

/-! What reset (R39) does to each field. -/

@[simp] theorem State.resetBlock_w (s : State) : s.resetBlock.w = State.reset.w := rfl
@[simp] theorem State.resetBlock_valid (s : State) : s.resetBlock.valid = State.reset.valid := rfl
@[simp] theorem State.resetBlock_pinf (s : State) : s.resetBlock.pinf = State.reset.pinf := rfl
@[simp] theorem State.resetBlock_ie (s : State) : s.resetBlock.ie = State.reset.ie := rfl
@[simp] theorem State.resetBlock_done (s : State) : s.resetBlock.done = State.reset.done := rfl
@[simp] theorem State.resetBlock_ovr (s : State) : s.resetBlock.ovr = State.reset.ovr := rfl
@[simp] theorem State.resetBlock_errCode (s : State) : s.resetBlock.errCode = State.reset.errCode := rfl
@[simp] theorem State.resetBlock_cur (s : State) : s.resetBlock.cur = State.reset.cur := rfl
@[simp] theorem State.resetBlock_msgLen (s : State) : s.resetBlock.msgLen = State.reset.msgLen := rfl
@[simp] theorem State.resetBlock_derLen (s : State) : s.resetBlock.derLen = State.reset.derLen := rfl
@[simp] theorem State.resetBlock_derBuf (s : State) : s.resetBlock.derBuf = State.reset.derBuf := rfl
@[simp] theorem State.resetBlock_signDraws (s : State) : s.resetBlock.signDraws = State.reset.signDraws := rfl
@[simp] theorem State.resetBlock_eng (s : State) : s.resetBlock.eng = State.reset.eng := rfl
@[simp] theorem State.resetBlock_attempts (s : State) : s.resetBlock.attempts = State.reset.attempts := rfl
@[simp] theorem State.resetBlock_snap (s : State) : s.resetBlock.snap = State.reset.snap := rfl
@[simp] theorem State.resetBlock_entReq (s : State) : s.resetBlock.entReq = State.reset.entReq := rfl
@[simp] theorem State.resetBlock_draw (s : State) : s.resetBlock.draw = State.reset.draw := rfl
@[simp] theorem State.resetBlock_rst (s : State) : s.resetBlock.rst = s.rst := rfl
@[simp] theorem State.resetBlock_cfg (s : State) : s.resetBlock.cfg = s.cfg := rfl
@[simp] theorem State.resetBlock_agenda (s : State) : s.resetBlock.agenda = s.agenda := rfl
@[simp] theorem State.resetBlock_resp (s : State) : s.resetBlock.resp = s.resp := rfl
@[simp] theorem State.resetBlock_freeCount (s : State) : s.resetBlock.freeCount = s.freeCount := rfl

/-! What zeroisation (R31) does to each field. -/

@[simp] theorem State.zeroise_w (s : State) (v : Bus) : (s.zeroise v).w = Vector.ofFn fun i : WIdx => if v.getLsbD i.val then 0#256 else s.wReg i := rfl
@[simp] theorem State.zeroise_valid (s : State) (v : Bus) : (s.zeroise v).valid = s.valid &&& ~~~(v.setWidth 16) := rfl
@[simp] theorem State.zeroise_pinf (s : State) (v : Bus) : (s.zeroise v).pinf = s.pinf := rfl
@[simp] theorem State.zeroise_ie (s : State) (v : Bus) : (s.zeroise v).ie = s.ie := rfl
@[simp] theorem State.zeroise_done (s : State) (v : Bus) : (s.zeroise v).done = s.done := rfl
@[simp] theorem State.zeroise_ovr (s : State) (v : Bus) : (s.zeroise v).ovr = s.ovr := rfl
@[simp] theorem State.zeroise_errCode (s : State) (v : Bus) : (s.zeroise v).errCode = s.errCode := rfl
@[simp] theorem State.zeroise_cur (s : State) (v : Bus) : (s.zeroise v).cur = s.cur := rfl
@[simp] theorem State.zeroise_msgLen (s : State) (v : Bus) : (s.zeroise v).msgLen = s.msgLen := rfl
@[simp] theorem State.zeroise_derLen (s : State) (v : Bus) : (s.zeroise v).derLen = s.derLen := rfl
@[simp] theorem State.zeroise_derBuf (s : State) (v : Bus) : (s.zeroise v).derBuf = s.derBuf := rfl
@[simp] theorem State.zeroise_signDraws (s : State) (v : Bus) : (s.zeroise v).signDraws = s.signDraws := rfl
@[simp] theorem State.zeroise_eng (s : State) (v : Bus) : (s.zeroise v).eng = s.eng := rfl
@[simp] theorem State.zeroise_attempts (s : State) (v : Bus) : (s.zeroise v).attempts = s.attempts := rfl
@[simp] theorem State.zeroise_snap (s : State) (v : Bus) : (s.zeroise v).snap = s.snap := rfl
@[simp] theorem State.zeroise_entReq (s : State) (v : Bus) : (s.zeroise v).entReq = s.entReq := rfl
@[simp] theorem State.zeroise_draw (s : State) (v : Bus) : (s.zeroise v).draw = s.draw := rfl
@[simp] theorem State.zeroise_rst (s : State) (v : Bus) : (s.zeroise v).rst = s.rst := rfl
@[simp] theorem State.zeroise_cfg (s : State) (v : Bus) : (s.zeroise v).cfg = s.cfg := rfl
@[simp] theorem State.zeroise_agenda (s : State) (v : Bus) : (s.zeroise v).agenda = s.agenda := rfl
@[simp] theorem State.zeroise_resp (s : State) (v : Bus) : (s.zeroise v).resp = s.resp := rfl
@[simp] theorem State.zeroise_freeCount (s : State) (v : Bus) : (s.zeroise v).freeCount = s.freeCount := rfl

end Sys2Proof.Machine
end

