-- ==== Sys2Proof/Laws/Ops.lean ====
section
/-! SUPPORT. What the shared operations can do, said once: reading a bit of a status word, the operand checks, the ways a
command ends, a bus access, and a step of an agent. -/

namespace Sys2Proof.Machine

/-! Bits. -/

theorem getLsbD_oneBit {n : Nat} (i k : Nat) : (1#n <<< i).getLsbD k = (decide (k < n) && decide (k = i)) := by
  rw [BitVec.getLsbD_shiftLeft]
  by_cases hk : k < n
  · have hn : 0 < n := by omega
    rcases lt_trichotomy k i with h | h | h
    · simp [hk, h, h.ne]
    · subst h; simp [hk, hn]
    · have : k - i ≠ 0 := by omega
      simp [hk, BitVec.getLsbD_one, h.not_gt, h.ne', this]
  · simp [hk]

@[simp] theorem getLsbD_setBit {n : Nat} (v : BitVec n) (i k : Nat) :
    (setBit v i).getLsbD k = (v.getLsbD k || (decide (k < n) && decide (k = i))) := by
  rw [setBit, BitVec.getLsbD_or, getLsbD_oneBit]

@[simp] theorem getLsbD_clearBit {n : Nat} (v : BitVec n) (i k : Nat) :
    (clearBit v i).getLsbD k = (v.getLsbD k && !decide (k = i)) := by
  rw [clearBit, BitVec.getLsbD_and, BitVec.getLsbD_not, getLsbD_oneBit]
  by_cases hk : k < n
  · simp [hk]
  · simp [hk, BitVec.getLsbD_of_ge v k (by omega)]

@[simp] theorem getLsbD_putBit {n : Nat} (v : BitVec n) (i : Nat) (b : Bool) (k : Nat) :
    (putBit v i b).getLsbD k = if k = i then (decide (k < n) && b) else v.getLsbD k := by
  by_cases hk : k = i <;> cases b <;> simp [putBit, hk]
  exact fun h => BitVec.lt_of_getLsbD h

/-! Operand checks (R88). -/

theorem withW_of_valid {s : State} {i : WIdx} (h : s.isValid i = true) (f : Word → Out) : withW s i f = f (s.wReg i) := by
  simp [withW, h]

theorem withW_of_invalid {s : State} {i : WIdx} (h : s.isValid i = false) (f : Word → Out) :
    withW s i f = .next (s.raise .precondition) := by
  simp [withW, h]

theorem withPt_of_readable {s : State} {j : PIdx} (h : s.ptReadable j = true) (f : Point → Out) :
    withPt s j f = f (s.point j) := by
  simp [withPt, h]

theorem withPt_of_unreadable {s : State} {j : PIdx} (h : s.ptReadable j = false) (f : Point → Out) :
    withPt s j f = .next (s.raise .precondition) := by
  simp [withPt, h]

/-- A command that reads a W operand goes on with its value, or ends with PRECONDITION. -/
theorem withW_cases (s : State) (i : WIdx) (f : Word → Out) :
    (s.isValid i = true ∧ withW s i f = f (s.wReg i)) ∨
    (s.isValid i = false ∧ withW s i f = .next (s.raise .precondition)) := by
  cases h : s.isValid i
  · exact .inr ⟨rfl, withW_of_invalid h f⟩
  · exact .inl ⟨rfl, withW_of_valid h f⟩

/-- A command that reads a point operand goes on with its value, or ends with PRECONDITION. -/
theorem withPt_cases (s : State) (j : PIdx) (f : Point → Out) :
    (s.ptReadable j = true ∧ withPt s j f = f (s.point j)) ∨
    (s.ptReadable j = false ∧ withPt s j f = .next (s.raise .precondition)) := by
  cases h : s.ptReadable j
  · exact .inr ⟨rfl, withPt_of_unreadable h f⟩
  · exact .inl ⟨rfl, withPt_of_readable h f⟩

/-! How a command ends. -/

/-- What a step of a command other than SIGN can come to (R93, R94): an error with nothing written, a NOP, a scalar, a
point, or an encoding. -/
inductive Ending (s : State) : State → Prop
  | error (code : ErrCode) (h : code = .precondition ∨ code = .arithDomain) : Ending s (s.raise code)
  | nothing : Ending s (s.complete .none)
  | scalar (rd : WIdx) (v : Nat) : Ending s ((s.putW rd (wordOf v)).complete .none)
  | point (rd : PIdx) (q : Point) : Ending s ((s.putPt rd q).complete .none)
  | encoding (r sv : Word) : Ending s ((s.putDer (derSig r sv)).complete .none)

theorem withW_ending {s : State} {i : WIdx} {f : Word → Out} (h : ∃ t, f (s.wReg i) = .next t ∧ Ending s t) :
    ∃ t, withW s i f = .next t ∧ Ending s t := by
  rcases withW_cases s i f with ⟨-, e⟩ | ⟨-, e⟩
  · rwa [e]
  · exact ⟨_, e, .error _ (.inl rfl)⟩

theorem withPt_ending {s : State} {j : PIdx} {f : Point → Out} (h : ∃ t, f (s.point j) = .next t ∧ Ending s t) :
    ∃ t, withPt s j f = .next t ∧ Ending s t := by
  rcases withPt_cases s j f with ⟨-, e⟩ | ⟨-, e⟩
  · rwa [e]
  · exact ⟨_, e, .error _ (.inl rfl)⟩

theorem commitPtOrRaise_ending (s : State) (rd : PIdx) (q : Option Point) :
    ∃ t, commitPtOrRaise s rd q = .next t ∧ Ending s t := by
  cases q with
  | none => exact ⟨_, rfl, .error _ (.inr rfl)⟩
  | some q => exact ⟨_, rfl, .point rd q⟩

/-- A SIGN step ends in one of four ways: a check error, the first request, a rejected draw, a commit, or PScalar's error. -/
theorem execSign_next {wr ws we wd : WIdx} {s t : State} (h : execSign wr ws we wd s = .next t) :
    (s.draw = none ∧ t = signCheck we wd s) ∨
    ∃ k, s.draw = some k ∧
      (t = signReject s.takeDraw ∨
        (∃ r sv, signDraw k.toNat s.snap.e.toNat s.snap.d.toNat = .signature r sv ∧ t = signCommit wr ws r sv s.takeDraw) ∨
        (signDraw k.toNat s.snap.e.toNat s.snap.d.toNat = .domainError ∧
          t = s.takeDraw.raiseSign .arithDomain s.takeDraw.attempts)) := by
  unfold execSign at h
  split at h
  · next hd => exact .inl ⟨hd, by cases h; rfl⟩
  · next k hd =>
    refine .inr ⟨k, hd, ?_⟩
    unfold signAttempt at h
    split at h <;> cases h
    · exact .inl rfl
    · next r sv hs => exact .inr (.inl ⟨r, sv, hs, rfl⟩)
    · next hs => exact .inr (.inr ⟨hs, rfl⟩)

/-- The check step's four outcomes (R125). -/
theorem signCheck_cases (we wd : WIdx) (s : State) :
    (∃ code, (code = .inputError ∨ code = .keyFormat ∨ code = .precondition) ∧ signCheck we wd s = s.raiseSign code 0) ∨
    (s.msgLen ≠ 0#32 ∧ s.isValid wd = true ∧ s.isValid we = true ∧
      signCheck we wd s = { s with snap := ⟨s.wReg we, s.wReg wd⟩, attempts := 0 }.requestDraw) := by
  unfold signCheck
  split_ifs with h1 h2 h3
  · exact .inl ⟨_, .inl rfl, rfl⟩
  · exact .inl ⟨_, .inr (.inl rfl), rfl⟩
  · exact .inl ⟨_, .inr (.inr rfl), rfl⟩
  · exact .inr ⟨h1, by simpa using h2, by simpa using h3, rfl⟩

/-- A rejected draw: RETRY_LIMIT or the next request (R127). -/
theorem signReject_cases (s : State) :
    (s.attempts = s.cfg.signMaxAttempts ∧ signReject s = s.raiseSign .retryLimit s.attempts) ∨
    (s.attempts ≠ s.cfg.signMaxAttempts ∧ signReject s = s.requestDraw) := by
  unfold signReject
  split_ifs with h
  · exact .inl ⟨h, rfl⟩
  · exact .inr ⟨h, rfl⟩

/-- A signature that a draw comes to has r and s in [1, n). -/
theorem signDraw_signature {k e d r sv : Nat} (h : signDraw k e d = .signature r sv) :
    (0 < k ∧ k < groupOrder) ∧ r ≠ 0 ∧ sv ≠ 0 ∧ (∃ x y, pScalar k basePoint = some (.fin x y) ∧ r = residue x groupOrder) ∧
      sv = residue ((inv k groupOrder : Int) * (e + d * r)) groupOrder := by
  unfold signDraw at h
  split_ifs at h with hk
  split at h
  · cases h
  · cases h
  · next x y hx =>
    dsimp only at h
    split_ifs at h with hr hs
    cases h
    exact ⟨by omega, hr, hs, ⟨x, y, hx, rfl⟩, rfl⟩

/-! Host accesses. -/

/-- What a write to a location can do (R57): nothing, or set OVR, or issue, or store in one register, or reset. -/
theorem writeLoc_readOnly (s : State) (v : Bus) {l : Loc}
    (h : l = .derLen ∨ l = .signDraws ∨ l = .reserved ∨ ∃ d, l = .derWord d) : s.writeLoc v l = s := by
  rcases h with rfl | rfl | rfl | ⟨d, rfl⟩ <;> rfl

theorem unlessBusy_of_busy {s : State} (h : s.busy = true) (t : State) : s.unlessBusy t = { s with ovr := true } := by
  simp [State.unlessBusy, h]

theorem unlessBusy_of_idle {s : State} (h : s.eng = .idle) (t : State) : s.unlessBusy t = t := by
  simp [State.unlessBusy, State.busy, h]

/-- A lawful write inside the window, with `RST` released, is performed. -/
theorem hostAccess_write {s : State} {off : Nat} (hr : s.rst = false) (h4 : off % 4 = 0) (hlt : off < 4096) (v : Bus) :
    s.hostAccess (.write (s.cfg.base + off) 4 v) = { s.writeLoc v (locAt off) with resp := .done } := by
  have ho : s.offset (.write (s.cfg.base + off) 4 v) = off := by simp [State.offset, Access.addr]
  have h1 : s.routed (.write (s.cfg.base + off) 4 v) = true := by
    simp [State.routed, Access.addr]; omega
  have h2 : s.lawful (.write (s.cfg.base + off) 4 v) = true := by
    simp [State.lawful, ho, h4, Access.size]
  simp [State.hostAccess, h1, h2, hr, State.performAccess, ho]

/-- A lawful read inside the window, with `RST` released, answers what the location reads as and changes nothing. -/
theorem hostAccess_read {s : State} {off : Nat} (hr : s.rst = false) (h4 : off % 4 = 0) (hlt : off < 4096) :
    s.hostAccess (.read (s.cfg.base + off) 4) = { s with resp := .data (s.readLoc (locAt off)) } := by
  have ho : s.offset (.read (s.cfg.base + off) 4) = off := by simp [State.offset, Access.addr]
  have h1 : s.routed (.read (s.cfg.base + off) 4) = true := by
    simp [State.routed, Access.addr]; omega
  have h2 : s.lawful (.read (s.cfg.base + off) 4) = true := by
    simp [State.lawful, ho, h4, Access.size]
  simp [State.hostAccess, h1, h2, hr, State.performAccess, ho]

/-- An access comes to one of four things: a free answer while `RST` is asserted, an answer without effect, a read, or a
write performed. -/
theorem hostAccess_cases (s : State) (a : Access) :
    (∃ r c, s.hostAccess a = { s with resp := r, freeCount := c }) ∨
    (s.rst = false ∧ ∃ v l, s.hostAccess a = { s.writeLoc v l with resp := .done }) := by
  unfold State.hostAccess
  split_ifs with h1 h2 h3
  · exact .inl ⟨_, _, rfl⟩
  · cases a with
    | read a z => exact .inl ⟨_, s.freeCount, rfl⟩
    | write a z v => exact .inr ⟨by simpa using h2, v, _, rfl⟩
  · exact .inl ⟨_, s.freeCount, rfl⟩
  · exact .inl ⟨_, s.freeCount, rfl⟩

/-- The location of word j of Wi (R46, R50). -/
@[simp] theorem locAt_lane (i : WIdx) (j : Lane) : locAt (0x100 + 32 * i.val + 4 * j.val) = .wWord i j := by
  revert i j; decide

/-- The location of word l of the DER buffer (R46, R52). -/
@[simp] theorem locAt_derWord (l : DerLane) : locAt (0x300 + 4 * l.val) = .derWord l := by
  revert l; decide

/-! Steps. -/

theorem step_nil {s : State} (h : s.agenda = []) : step s = engineTurn s := by rw [step, h]

theorem step_cons {s : State} {e : Event} {rest : List Event} (h : s.agenda = e :: rest) :
    step s = perform e { s with agenda := rest } := by rw [step, h]

theorem engineTurn_run {s : State} (hr : s.rst = false) (he : s.eng = .run) : engineTurn s = runWord s := by
  simp [engineTurn, hr, he]

theorem runWord_row {s : State} {i : Instr} (h : decode s.cur = .row i) : runWord s = exec i s := by rw [runWord, h]

theorem runWord_illegal {s : State} (h : decode s.cur = .illegal) : runWord s = .next (s.raise .illegalCmd) := by
  rw [runWord, h]

theorem engineTurn_still {s : State} (h : s.rst = true ∨ s.eng ≠ .run) : engineTurn s = .next s := by
  unfold engineTurn
  rcases h with h | h
  · simp [h]
  · split
    · rfl
    · split <;> simp_all

theorem deliver_waiting {s : State} (hr : s.rst = false) (he : s.eng = .waitEntropy) (b : Vector Byte 32) :
    s.deliver b = { s with draw := some (drawOf b), entReq := false, eng := .run } := by
  simp [State.deliver, hr, he]

theorem deliver_still {s : State} (h : s.rst = true ∨ s.eng ≠ .waitEntropy) (b : Vector Byte 32) : s.deliver b = s := by
  unfold State.deliver
  rcases h with h | h
  · simp [h]
  · split
    · rfl
    · split <;> simp_all

end Sys2Proof.Machine
end

