-- ==== Sys2Proof/Laws/PerInstr.lean ====
section
/-! SUPPORT. One lemma per command about the command as syntax: the word that the encoder makes spells the command's own
row of R76. -/

namespace Sys2Proof.Laws.RowMatch

/-- The encoder's word spells the command's row (R76). -/
def Statement (i : Instr) : Prop := (rowOf i).spells (encode i) = true

theorem nop : Statement .nop := rfl

theorem fadd (m : Modulus) (rd ra rb : WIdx) : Statement (.fadd m rd ra rb) :=
  (spells_pack (mask := ⟨0xFF, 0, 0, 0, 0xF, 0, 1⟩) (bits := ⟨1, 0, 0, 0, 0, 0, 0⟩) rfl rfl _).mpr (by simp [fieldsFor, Fields.masked])

theorem fsub (m : Modulus) (rd ra rb : WIdx) : Statement (.fsub m rd ra rb) :=
  (spells_pack (mask := ⟨0xFF, 0, 0, 0, 0xF, 0, 1⟩) (bits := ⟨2, 0, 0, 0, 0, 0, 0⟩) rfl rfl _).mpr (by simp [fieldsFor, Fields.masked])

theorem fmul (m : Modulus) (rd ra rb : WIdx) : Statement (.fmul m rd ra rb) :=
  (spells_pack (mask := ⟨0xFF, 0, 0, 0, 0xF, 0, 1⟩) (bits := ⟨3, 0, 0, 0, 0, 0, 0⟩) rfl rfl _).mpr (by simp [fieldsFor, Fields.masked])

theorem finv (m : Modulus) (rd ra : WIdx) : Statement (.finv m rd ra) :=
  (spells_pack (mask := ⟨0xFF, 0, 0, 0xF, 0xF, 0, 1⟩) (bits := ⟨4, 0, 0, 0, 0, 0, 0⟩) rfl rfl _).mpr (by simp [fieldsFor, Fields.masked])

theorem pdbl (rd ra : PIdx) : Statement (.pdbl rd ra) :=
  (spells_pack (mask := ⟨0xFF, 8, 8, 0xF, 0xF, 1, 1⟩) (bits := ⟨0x10, 0, 0, 0, 0, 0, 0⟩) rfl rfl _).mpr (by simp [fieldsFor, Fields.masked])

theorem padd (rd ra rb : PIdx) : Statement (.padd rd ra rb) :=
  (spells_pack (mask := ⟨0xFF, 8, 8, 8, 0xF, 1, 1⟩) (bits := ⟨0x11, 0, 0, 0, 0, 0, 0⟩) rfl rfl _).mpr (by simp [fieldsFor, Fields.masked])

theorem pmul (rd : PIdx) (ra : WIdx) (rb : PIdx) : Statement (.pmul rd ra rb) :=
  (spells_pack (mask := ⟨0xFF, 8, 0, 8, 0xF, 1, 1⟩) (bits := ⟨0x12, 0, 0, 0, 0, 0, 0⟩) rfl rfl _).mpr (by simp [fieldsFor, Fields.masked])

theorem pmulG (rd : PIdx) (ra : WIdx) : Statement (.pmulG rd ra) :=
  (spells_pack (mask := ⟨0xFF, 8, 0, 0xF, 0xF, 1, 1⟩) (bits := ⟨0x12, 0, 0, 0, 0, 0, 1⟩) rfl rfl _).mpr (by simp [fieldsFor, Fields.masked])

theorem pchk (rd : WIdx) (ra : PIdx) : Statement (.pchk rd ra) :=
  (spells_pack (mask := ⟨0xFF, 0, 8, 0xF, 0xF, 1, 1⟩) (bits := ⟨0x13, 0, 0, 0, 0, 0, 0⟩) rfl rfl _).mpr (by simp [fieldsFor, Fields.masked])

theorem sign (wr ws we wd : WIdx) : Statement (.sign wr ws we wd) :=
  (spells_pack (mask := ⟨0xFF, 0, 0, 0, 0, 1, 1⟩) (bits := ⟨0x20, 0, 0, 0, 0, 0, 0⟩) rfl rfl _).mpr (by simp [fieldsFor, Fields.masked])

theorem der (wr ws : WIdx) : Statement (.der wr ws) :=
  (spells_pack (mask := ⟨0xFF, 0xF, 0, 0, 0xF, 1, 1⟩) (bits := ⟨0x21, 0, 0, 0, 0, 0, 0⟩) rfl rfl _).mpr (by simp [fieldsFor, Fields.masked])

end Sys2Proof.Laws.RowMatch
end

