-- ==== Sys2Proof/Tests/Slice0.lean ====
section
/-! SUPPORT. Our own tests, and for each statement with hypotheses a state and operands that meet them. Expected values are
the spec's: words and results of 95_test_vectors.md, named by their vector, never the model's own answers. -/

namespace Sys2Proof.Tests

open Sys2Proof.Machine Sys2Proof.Claim

/-- The reset state with these W registers written. -/
def load (l : List (WIdx × Nat)) : State := l.foldl (fun s e => s.putW e.1 (wordOf e.2)) State.reset

/-- A step that answers a next state of which `p` holds. -/
def ends (o : Out) (p : State → Bool) : Bool :=
  match o with
  | .next t => p t
  | .fault _ => false
  | .refused _ => false

theorem next_of_ends {o : Out} {p : State → Bool} (h : ends o p = true) : ∃ t, o = .next t ∧ p t = true := by
  cases o with
  | next t => exact ⟨t, rfl, h⟩
  | fault f => cases h
  | refused r => cases h

/-- The n of R20, Gx and Gy of R19, written out again. -/
def nLit : Nat := 0xFFFFFFFFFFFFFFFFFFFFFFFFFFFFFFFEBAAEDCE6AF48A03BBFD25E8CD0364141
def pLit : Nat := 0xFFFFFFFFFFFFFFFFFFFFFFFFFFFFFFFFFFFFFFFFFFFFFFFFFFFFFFFEFFFFFC2F
def gxLit : Nat := 0x79BE667EF9DCBBAC55A06295CE870B07029BFCDB2DCE28D959F2815B16F81798
def gyLit : Nat := 0x483ADA7726A3C4655DA4FBFC0E1108A8FD17B448A68554199C47D08FFB10D4B8
def maxWord : Nat := 0xFFFFFFFFFFFFFFFFFFFFFFFFFFFFFFFFFFFFFFFFFFFFFFFFFFFFFFFFFFFFFFFF

/-- The inputs of V-S13 (e = 5, d = 1, MSG_LEN = 3), with the window at 0x10000 and a cap of 2 draws. -/
def ready : State := { load [(0, 5), (1, 1)] with msgLen := 3#32, cfg := ⟨0x10000, 2⟩ }

/-- `ready` with SIGN W2, W3, W0, W1 issued and its check step taken. -/
def waiting : State := signCheck 0 1 (ready.issue 0x00310220#32)

/-- `waiting` with the draw k delivered. -/
def holding (k : Nat) : State := { waiting with draw := some (wordOf k), entReq := false, eng := .run }

/-! Well-formedness: one check, one ill-formed term. -/

theorem test_wellFormed_refuses_sign_with_equal_destinations : (Instr.sign 4 4 0 1).wellFormed = false := by decide

theorem test_wellFormed_accepts_sign_with_other_overlaps : (Instr.sign 0 3 0 0).wellFormed = true := by decide

/-! Decoding. -/

/-- Every row's word, field by field as R71 lays them out: {000000, gsel, msel, rc, rb, ra, rd, opc}. -/
theorem test_decode_words_written_field_by_field :
    decode (0b000000#6 ++ 0b0#1 ++ 0b0#1 ++ 0b0000#4 ++ 0b0000#4 ++ 0b0000#4 ++ 0b0000#4 ++ 0b00000000#8) = .row .nop ∧
    decode (0b000000#6 ++ 0b0#1 ++ 0b1#1 ++ 0b0000#4 ++ 0b0110#4 ++ 0b1011#4 ++ 0b1101#4 ++ 0b00000001#8) = .row (.fadd .n 13 11 6) ∧
    decode (0b000000#6 ++ 0b0#1 ++ 0b0#1 ++ 0b0000#4 ++ 0b0110#4 ++ 0b0100#4 ++ 0b1001#4 ++ 0b00000010#8) = .row (.fsub .p 9 4 6) ∧
    decode (0b000000#6 ++ 0b0#1 ++ 0b1#1 ++ 0b0000#4 ++ 0b0010#4 ++ 0b0001#4 ++ 0b1000#4 ++ 0b00000011#8) = .row (.fmul .n 8 1 2) ∧
    decode (0b000000#6 ++ 0b0#1 ++ 0b1#1 ++ 0b0000#4 ++ 0b0000#4 ++ 0b0100#4 ++ 0b0101#4 ++ 0b00000100#8) = .row (.finv .n 5 4) ∧
    decode (0b000000#6 ++ 0b0#1 ++ 0b0#1 ++ 0b0000#4 ++ 0b0000#4 ++ 0b0010#4 ++ 0b0111#4 ++ 0b00010000#8) = .row (.pdbl 7 2) ∧
    decode (0b000000#6 ++ 0b0#1 ++ 0b0#1 ++ 0b0000#4 ++ 0b0001#4 ++ 0b0101#4 ++ 0b0110#4 ++ 0b00010001#8) = .row (.padd 6 5 1) ∧
    decode (0b000000#6 ++ 0b0#1 ++ 0b0#1 ++ 0b0000#4 ++ 0b0110#4 ++ 0b1111#4 ++ 0b0011#4 ++ 0b00010010#8) = .row (.pmul 3 15 6) ∧
    decode (0b000000#6 ++ 0b1#1 ++ 0b0#1 ++ 0b0000#4 ++ 0b0000#4 ++ 0b1000#4 ++ 0b0001#4 ++ 0b00010010#8) = .row (.pmulG 1 8) ∧
    decode (0b000000#6 ++ 0b0#1 ++ 0b0#1 ++ 0b0000#4 ++ 0b0000#4 ++ 0b0001#4 ++ 0b1100#4 ++ 0b00010011#8) = .row (.pchk 12 1) ∧
    decode (0b000000#6 ++ 0b0#1 ++ 0b0#1 ++ 0b1011#4 ++ 0b1001#4 ++ 0b1000#4 ++ 0b1010#4 ++ 0b00100000#8) = .row (.sign 10 11 8 9) ∧
    decode (0b000000#6 ++ 0b0#1 ++ 0b0#1 ++ 0b0000#4 ++ 0b1011#4 ++ 0b1010#4 ++ 0b0000#4 ++ 0b00100001#8) = .row (.der 10 11) := by
  decide +kernel

/-- V-E1 to V-E29, those that R85 does not list. -/
theorem test_decode_vectors :
    decode 0x01010201#32 = .row (.fadd .n 2 0 1) ∧ decode 0x00010402#32 = .row (.fsub .p 4 0 1) ∧
    decode 0x01010402#32 = .row (.fsub .n 4 0 1) ∧ decode 0x00064902#32 = .row (.fsub .p 9 4 6) ∧
    decode 0x00077503#32 = .row (fsqr .p 5 7) ∧ decode 0x0000FF04#32 = .row (.finv .p 15 15) ∧
    decode 0x00007710#32 = .row (.pdbl 7 7) ∧ decode 0x00000011#32 = .row (.padd 0 0 0) ∧
    decode 0x0007F712#32 = .row (.pmul 7 15 7) ∧ decode 0x02008012#32 = .row (pubgen 0 8) ∧
    decode 0x00340220#32 = .row (.sign 2 3 0 4) ∧ decode 0x000BA021#32 = .row (.der 10 11) := by decide +kernel

/-- V-E30 to V-E46. -/
theorem test_decode_illegal_words :
    [0x00000005#32, 0x000000FF#32, 0x00000100#32, 0x04010201#32, 0x00110201#32, 0x02010201#32, 0x00010104#32, 0x00000810#32,
      0x01000110#32, 0x00090211#32, 0x00088312#32, 0x02018012#32, 0x00008913#32, 0x00410420#32, 0x01310220#32, 0x00032121#32,
      0x00132021#32].all (fun c => decode c == .illegal) = true := by decide +kernel

theorem test_decodeTableWord : decodeTableWord 32 0x00310220 = some (.sign 2 3 0 1) ∧ decodeTableWord 32 0x05 = none := by
  decide +kernel

/-- V-E22 as the first instruction after reset: PCHK of a point that is not loaded (V-P35). -/
theorem test_withFetchWord_runs_the_word :
    ends (step (State.reset.withFetchWord 32 0x00000913)) (fun t => t.statusWord == 0x00000506#32 && t.cur == 0x00000913#32) =
      true := by decide +kernel

/-! The commands. -/

/-- V-C2. -/
theorem test_nop_only_completes : ends (exec .nop State.reset) (fun t => t.statusWord == 0x00000002#32) = true := by
  decide +kernel

/-- V-F2. -/
theorem test_fadd_reduces_an_unreduced_sum :
    ends (exec (.fadd .p 2 0 1) (load [(0, maxWord), (1, maxWord)]))
      (fun t => t.w[2] == 0x2000007A0#256 && t.valid == 0x0007#16) = true := by decide +kernel

/-- V-F32: a scalar write into the pair of a point at infinity. -/
theorem test_fadd_clears_the_infinity_bit :
    ends (exec (.fadd .p 2 0 1) { load [(0, 1), (1, 2)] with pinf := 0x02#8 }) (fun t => t.w[2] == 3#256 && t.pinf == 0x00#8) =
      true := by decide +kernel

/-- V-F6. -/
theorem test_fsub_below_zero :
    ends (exec (.fsub .p 2 0 1) (load [(0, 0), (1, 1)]))
      (fun t => t.w[2] == 0xFFFFFFFFFFFFFFFFFFFFFFFFFFFFFFFFFFFFFFFFFFFFFFFFFFFFFFFEFFFFFC2E#256) = true := by decide +kernel

/-- V-F10. -/
theorem test_fsub_of_an_unreduced_subtrahend :
    ends (exec (.fsub .n 2 0 1) (load [(0, 0), (1, maxWord)]))
      (fun t => t.w[2] == 0xFFFFFFFFFFFFFFFFFFFFFFFFFFFFFFFD755DB9CD5E9140777FA4BD19A06C8283#256) = true := by decide +kernel

/-- V-F17. -/
theorem test_fmul_of_unreduced_operands :
    ends (exec (.fmul .p 2 0 1) (load [(0, maxWord), (1, maxWord)]))
      (fun t => t.w[2] == 0x1000007A0000E8900#256) = true := by decide +kernel

/-- V-F31: the destination is both sources. -/
theorem test_fmul_in_place :
    ends (exec (.fmul .n 3 3 3) (load [(3, nLit - 1)])) (fun t => t.w[3] == 1#256) = true := by decide +kernel

/-- V-F23. -/
theorem test_finv_of_three_mod_n :
    ends (exec (.finv .n 1 0) (load [(0, 3)]))
      (fun t => t.w[1] == 0xAAAAAAAAAAAAAAAAAAAAAAAAAAAAAAA9D1C9E899CA306AD27FE1945DE0242B81#256) = true := by decide +kernel

/-- V-F26, V-F30: no inverse, and the destination keeps its value. -/
theorem test_finv_of_the_modulus :
    ends (exec (.finv .p 1 0) (load [(0, pLit), (1, 5)])) (fun t => t.statusWord == 0x00000406#32 && t.w[1] == 5#256) =
      true := by decide +kernel

/-- V-P1. -/
theorem test_pdbl_of_G :
    ends (exec (.pdbl 1 0) (load [(0, gxLit), (1, gyLit)]))
      (fun t => t.w[2] == 0xC6047F9441ED7D6D3045406E95C07CD85C778E4B8CEF3CA7ABAC09B95C709EE5#256 &&
        t.w[3] == 0x1AE168FEA63DC339A3C58419466CEAEEF7F632653266D0E1236431A950CFE52A#256) = true := by decide +kernel

/-- V-P39: the result INF over an earlier point. -/
theorem test_pdbl_to_infinity :
    ends (exec (.pdbl 1 0) (load [(0, 5), (1, 0), (2, 9), (3, 9)]))
      (fun t => t.w[2] == 0#256 && t.w[3] == 0#256 && t.pinf == 0x02#8 && t.valid == 0x000F#16) = true := by decide +kernel

/-- V-P11: INF + U leaves U as it is, unreduced. -/
theorem test_padd_keeps_an_unreduced_coordinate :
    ends (exec (.padd 2 1 0) { load [(0, pLit + 1), (1, 7)] with pinf := 0x02#8 })
      (fun t => t.w[4] == wordOf (pLit + 1) && t.w[5] == 7#256) = true := by decide +kernel

/-- V-P10: equal x and unrelated y. -/
theorem test_padd_raises_arith_domain :
    ends (exec (.padd 2 1 0) (load [(0, 1), (1, 2), (2, 1), (3, 1), (4, 6)]))
      (fun t => t.statusWord == 0x00000406#32 && t.w[4] == 6#256) = true := by decide +kernel

/-- V-P24: 3·(1, 1), off the curve. -/
theorem test_pmul_off_the_curve :
    ends (exec (.pmul 3 8 0) (load [(8, 3), (0, 1), (1, 1)]))
      (fun t => t.w[6] == 0x8E38E38E38E38E38E38E38E38E38E38E38E38E38E38E38E38E38E38DAAAAA88C#256 &&
        t.w[7] == 0x2F684BDA12F684BDA12F684BDA12F684BDA12F684BDA12F684BDA12F38E38D84#256) = true := by decide +kernel

/-- V-P40: the scalar is also the point's x, and the destination. -/
theorem test_pmul_over_its_own_operands :
    ends (exec (.pmul 0 0 0) (load [(0, 2), (1, gyLit)]))
      (fun t => t.w[0] == 0x6285A49F6322D0A61A005225CEBECF13A4AE2D97E1422B2B1E36F1E63AD62415#256 &&
        t.w[1] == 0xBA9FB345F385C1495F2B6CD1DE5767EE7065FC3313F9C12F637EDC28417FDF29#256) = true := by decide +kernel

/-- V-P16's scalar 7, on G as the constant. -/
theorem test_pmulG_of_seven :
    ends (exec (.pmulG 0 8) (load [(8, 7)]))
      (fun t => t.w[0] == 0x5CBDF0646E5DB4EAA398F365F2EA7A0E3D419B7E0330E39CE92BDDEDCAC4F9BC#256 &&
        t.w[1] == 0x6AEBCA40BA255960A3178D6D861A54DBA813D0B813FDE7B5A5082628087264DA#256) = true := by decide +kernel

/-- V-P29: a congruence on raw coordinates. -/
theorem test_pchk_of_an_unreduced_point :
    ends (exec (.pchk 9 0) (load [(0, pLit + 1), (1, 0x4218F20AE6C646B363DB68605822FB14264CA8D2587FDD6FBC750D587E76A7EE)]))
      (fun t => t.w[9] == 1#256) = true := by decide +kernel

/-- V-P28. -/
theorem test_pchk_off_the_curve :
    ends (exec (.pchk 9 0) (load [(0, gxLit), (1, gyLit + 1), (9, 5)])) (fun t => t.w[9] == 0#256) = true := by decide +kernel

/-- V-S13: e = 5, d = 1, the draw 1. -/
theorem test_sign_commits :
    ends (exec (.sign 2 3 0 1) (holding 1))
      (fun t => t.w[2] == 0x79BE667EF9DCBBAC55A06295CE870B07029BFCDB2DCE28D959F2815B16F81798#256 &&
        t.w[3] == 0x79BE667EF9DCBBAC55A06295CE870B07029BFCDB2DCE28D959F2815B16F8179D#256 &&
        t.derLen == 70#7 && t.signDraws == 1#32 && t.statusWord == 0x00000002#32) = true := by decide +kernel

/-- V-S7's second rejected draw, with the cap 2. -/
theorem test_sign_reaches_the_cap :
    ends (exec (.sign 2 3 0 1) { holding 0 with attempts := 1 })
      (fun t => t.statusWord == 0x00000606#32 && t.signDraws == 2#32 && t.valid == 0x0003#16) = true := by decide +kernel

/-- V-D2. -/
theorem test_der_pads_the_high_bit :
    ends (exec (.der 10 11) (load [(10, 0x7F), (11, 0x80)]))
      (fun t => t.derBuf.toList.take 9 == [0x30#8, 7#8, 2#8, 1#8, 0x7F#8, 2#8, 2#8, 0#8, 0x80#8] && t.derLen == 9#7 &&
        t.readLoc (locAt 0x304) == 0x0002027F#32) = true := by decide +kernel

/-- V-D6, the longest encoding. -/
theorem test_der_fills_the_buffer :
    ends (exec (.der 10 11) (load [(10, 0x8000000000000000000000000000000000000000000000000000000000000000), (11, maxWord)]))
      (fun t => t.derLen == 72#7 && t.readLoc (locAt 0x300) == 0x21024630#32 && t.derBuf[71] == 0xFF#8) = true := by
  decide +kernel

/-! The bus, the interrupt and reset. -/

/-- V-C6: a word write while SIGN waits is dropped and sets OVR. -/
theorem test_busy_write_is_dropped :
    (waiting.hostAccess (.write 0x101A0 4 7#32)).statusWord = 0x00000009#32 ∧
      (waiting.hostAccess (.write 0x101A0 4 7#32)).isValid 5 = false := by decide +kernel

/-- V-C8: the word write that clears PINF[2]. -/
theorem test_word_write_clears_the_infinity_bit :
    ({ State.reset with pinf := 0xFF#8 }.hostAccess (.write 0x180 4 1#32)).readLoc .pinf = 0xFB#32 := by decide +kernel

/-- V-C10: zeroisation. -/
theorem test_w_valid_zeroises :
    ((load [(0, 0xABC), (3, 1)]).hostAccess (.write 0x010 4 0x0001#32)).readLoc .wValid = 0x0008#32 := by decide +kernel

/-- V-C12: a soft reset of a waiting SIGN, and the delivery after it. -/
theorem test_soft_reset_withdraws_the_request :
    ({ waiting with ie := true }.hostAccess (.write 0x10000 4 3#32)).entReq = false ∧
      ({ waiting with ie := true }.hostAccess (.write 0x10000 4 3#32)).ctrlWord = 0#32 := by decide +kernel

/-- V-C13, V-C15: a reserved offset reads 0, and a byte write gets a bus error. -/
theorem test_reserved_read_and_bus_error :
    (ready.hostAccess (.read 0x10348 4)).resp = .data 0#32 ∧ (ready.hostAccess (.write 0x10101 1 5#32)).resp = .busError := by
  decide +kernel

/-! Witnesses: for each statement with hypotheses, a state and operands that meet them together. -/

theorem witness_DecodeOfEncodeIsIdentity : (Instr.sign 15 0 15 15).wellFormed = true ∧ (Instr.padd 7 7 7).wellFormed = true := by
  decide

theorem witness_EncodeOfDecodeIsIdentity : decode 0x01FFFF04#32 = .illegal ∧ decode 0x0100FF04#32 = .row (.finv .n 15 15) := by
  decide +kernel

/-- One illegal word for each of the five conditions. -/
theorem witness_IllegalWordsExactlyByRule :
    illegalByRule 0x00000005#32 ∧ illegalByRule 0x04000000#32 ∧ illegalByRule 0x00110201#32 ∧ illegalByRule 0x00000810#32 ∧
      illegalByRule 0x00410420#32 ∧ ready.eng = .idle ∧ ready.rst = false :=
  ⟨.inl (by decide +kernel), .inr (.inl (by decide +kernel)), .inr (.inr (.inl (.inr (.inl (by decide +kernel))))),
    .inr (.inr (.inr (.inl (.inl (by decide +kernel))))), .inr (.inr (.inr (.inr (by decide +kernel)))), rfl, rfl⟩

theorem witness_StepRunsTheDecodedCommand :
    (holding 1).rst = false ∧ (holding 1).eng = .run ∧ decode (holding 1).cur = .row (.sign 2 3 0 1) ∧
      (holding 1).agenda = [] ∧ { holding 1 with agenda := [.engine] }.agenda = .engine :: [] := by decide +kernel

theorem witness_IssueLatchesTheWordAndItRunsNext :
    ready.rst = false ∧ ready.eng = .idle ∧ (Instr.sign 2 3 0 1).wellFormed = true := by decide +kernel

theorem witness_NonSignCommandsCompleteInOneStep : isSign (.der 2 3) = false := rfl

theorem witness_CommandFrame : ∃ t, exec (.sign 2 3 0 1) (holding 1) = .next t ∧ (t.eng == .idle) = true :=
  next_of_ends (by decide +kernel)

/-- Two states that agree on the operands and differ elsewhere, and a command that succeeds. -/
theorem witness_OutcomeDependsOnOperandsOnly :
    (∀ k ∈ scalarSources (.pmul 3 8 0) ++ (pointSources (.pmul 3 8 0)).flatMap pair,
      (load [(8, 3), (0, 1), (1, 1), (5, 9)]).w[k] = (load [(8, 3), (0, 1), (1, 1)]).w[k] ∧
      (load [(8, 3), (0, 1), (1, 1), (5, 9)]).valid.getLsbD k.val = (load [(8, 3), (0, 1), (1, 1)]).valid.getLsbD k.val) ∧
    (∀ j ∈ pointSources (.pmul 3 8 0),
      (load [(8, 3), (0, 1), (1, 1), (5, 9)]).pinf.getLsbD j.val = (load [(8, 3), (0, 1), (1, 1)]).pinf.getLsbD j.val) ∧
    ∃ t, exec (.pmul 3 8 0) (load [(8, 3), (0, 1), (1, 1)]) = .next t ∧ (t.errCode == .none) = true :=
  ⟨by decide +kernel, by decide +kernel, next_of_ends (by decide +kernel)⟩

theorem witness_FieldCommandsWriteReducedResults :
    (load [(0, maxWord), (15, 0)]).valid.getLsbD (0 : WIdx).val = true ∧
      (load [(0, maxWord), (15, 0)]).valid.getLsbD (15 : WIdx).val = true := by decide +kernel

/-- Both moduli, with an operand above the modulus. -/
theorem witness_FinvWritesTheInverse :
    (load [(15, maxWord)]).valid.getLsbD (15 : WIdx).val = true ∧ (load [(15, maxWord)]).w[15].toNat % modulusValue .p ≠ 0 ∧
      (load [(15, maxWord)]).w[15].toNat % modulusValue .n ≠ 0 := by decide +kernel

theorem witness_FinvRaisesExactlyAtZeroAndModulus :
    (load [(0, 0)]).valid.getLsbD (0 : WIdx).val = true ∧ (load [(0, 0)]).w[0].toNat = 0 ∧
      (load [(0, nLit)]).valid.getLsbD (0 : WIdx).val = true ∧ (load [(0, nLit)]).w[0].toNat = modulusValue .n := by
  decide +kernel

theorem witness_FieldResultsLieBelowTheModulus :
    (∃ t, exec (.fadd .n 2 0 1) (load [(0, maxWord), (1, 0)]) = .next t ∧ (t.errCode == .none) = true) ∧
    (∃ t, exec (.fsub .p 2 0 1) (load [(0, 0), (1, maxWord)]) = .next t ∧ (t.errCode == .none) = true) ∧
    (∃ t, exec (.fmul .n 2 0 1) (load [(0, maxWord), (1, maxWord)]) = .next t ∧ (t.errCode == .none) = true) ∧
    (∃ t, exec (.finv .p 2 0) (load [(0, pLit - 1)]) = .next t ∧ (t.errCode == .none) = true) :=
  ⟨next_of_ends (by decide +kernel), next_of_ends (by decide +kernel), next_of_ends (by decide +kernel),
    next_of_ends (by decide +kernel)⟩

/-- An unwritten W register, and a point register with one coordinate written. -/
theorem witness_UnreadableOperandsRaisePrecondition :
    (load [(0, 1)]).valid.getLsbD (15 : WIdx).val = false ∧ (load [(0, 1)]).valid.getLsbD (1 : WIdx).val = false ∧
      (load [(0, 1)]).ptReadable 0 = false ∧ (load [(0, 1)]).ptReadable 7 = false := by decide +kernel

theorem witness_PointRegistersViewPairs :
    { State.reset with pinf := 0x80#8 }.pinf.getLsbD (7 : PIdx).val = true ∧ State.reset.pinf.getLsbD (0 : PIdx).val = false := by
  decide +kernel

theorem witness_PdblWritesTheDouble :
    (load [(14, 1), (15, 2)]).ptReadable 7 = true ∧ { State.reset with pinf := 0x01#8 }.ptReadable 0 = true := by decide +kernel

/-- A pair of points that adds (INF at P4), and a pair with equal x and unrelated y. -/
theorem witness_PaddWritesTheSumOrRaises :
    { load [(0, 1), (1, 2), (2, 1), (3, 1)] with pinf := 0x10#8 }.ptReadable 4 = true ∧
    { load [(0, 1), (1, 2), (2, 1), (3, 1)] with pinf := 0x10#8 }.ptReadable 1 = true ∧
    pAdd ({ load [(0, 1), (1, 2), (2, 1), (3, 1)] with pinf := 0x10#8 }.point 1)
      ({ load [(0, 1), (1, 2), (2, 1), (3, 1)] with pinf := 0x10#8 }.point 4) = some (.fin 1 1) ∧
    (load [(0, 1), (1, 2), (2, 1), (3, 1)]).ptReadable 0 = true ∧ (load [(0, 1), (1, 2), (2, 1), (3, 1)]).ptReadable 1 = true ∧
    (load [(0, 1), (1, 2), (2, 1), (3, 1)]).point 1 = .fin 1 1 ∧ (load [(0, 1), (1, 2), (2, 1), (3, 1)]).point 0 = .fin 1 2 ∧
    1 % fieldPrime ≠ 2 % fieldPrime ∧ (1 + 2) % fieldPrime ≠ 0 := by decide +kernel

theorem witness_PmulWritesTheMultiple :
    (load [(8, 2), (0, 1), (1, 1)]).valid.getLsbD (8 : WIdx).val = true ∧ (load [(8, 2), (0, 1), (1, 1)]).ptReadable 0 = true ∧
    pScalar (load [(8, 2), (0, 1), (1, 1)]).w[8].toNat ((load [(8, 2), (0, 1), (1, 1)]).point 0) =
      some (.fin 0x3FFFFFFFFFFFFFFFFFFFFFFFFFFFFFFFFFFFFFFFFFFFFFFFFFFFFFFFBFFFFF0C
        0x1FFFFFFFFFFFFFFFFFFFFFFFFFFFFFFFFFFFFFFFFFFFFFFFFFFFFFFFDFFFFF86) := by decide +kernel

theorem witness_PmulGWritesTheMultipleOfG :
    (load [(15, 1)]).valid.getLsbD (15 : WIdx).val = true ∧
    pScalar (load [(15, 1)]).w[15].toNat
      (.fin 0x79BE667EF9DCBBAC55A06295CE870B07029BFCDB2DCE28D959F2815B16F81798
        0x483ADA7726A3C4655DA4FBFC0E1108A8FD17B448A68554199C47D08FFB10D4B8) = some (.fin gxLit gyLit) := by decide +kernel

theorem witness_PchkWritesCurveMembership :
    { State.reset with pinf := 0x80#8 }.ptReadable 7 = true ∧ { State.reset with pinf := 0x80#8 }.point 7 = .inf ∧
      (load [(0, 1), (1, 1)]).ptReadable 0 = true ∧ (load [(0, 1), (1, 1)]).point 0 = .fin 1 1 := by decide +kernel

theorem witness_PDoubleIsTheTangentRule : fieldPrime % fieldPrime = 0 ∧ (fieldPrime - 1) % fieldPrime ≠ 0 := by decide +kernel

/-- Equal x with equal y, with opposite y and with unrelated y, each unreduced somewhere; and different x. -/
theorem witness_PAddIsTheChordRule :
    1 % fieldPrime = (pLit + 1) % fieldPrime ∧ (pLit + 5) % fieldPrime = 5 % fieldPrime ∧
      1 % fieldPrime ≠ (pLit - 1) % fieldPrime ∧ (1 + (pLit - 1)) % fieldPrime = 0 ∧
      1 % fieldPrime ≠ 2 % fieldPrime ∧ (1 + 2) % fieldPrime ≠ 0 := by decide +kernel

theorem witness_PScalarIsDoubleAndAdd : 2 ^ 255 - 1 < 2 ^ 255 := by decide +kernel

theorem witness_PScalarNeverRaises : pAdd (.fin 1 1) (.fin 1 2) = none := by decide +kernel

/-- G, and the point U of 95_test_vectors.md, whose x is not reduced. -/
theorem witness_PointLawsOnTheCurve :
    onCurve (.fin gxLit gyLit) = true ∧
      onCurve (.fin (pLit + 1) 0x4218F20AE6C646B363DB68605822FB14264CA8D2587FDD6FBC750D587E76A7EE) = true := by decide +kernel

/-- One state for each of the four clauses. -/
theorem witness_SignChecksInOrder :
    State.reset.draw = none ∧ State.reset.msgLen = 0#32 ∧
    { State.reset with msgLen := 1#32 }.msgLen ≠ 0#32 ∧ { State.reset with msgLen := 1#32 }.valid.getLsbD (15 : WIdx).val = false ∧
    { load [(1, 1)] with msgLen := 1#32 }.valid.getLsbD (1 : WIdx).val = true ∧
    { load [(1, 1)] with msgLen := 1#32 }.valid.getLsbD (0 : WIdx).val = false ∧
    ready.draw = none ∧ ready.msgLen ≠ 0#32 ∧ ready.valid.getLsbD (1 : WIdx).val = true ∧
    ready.valid.getLsbD (0 : WIdx).val = true := by decide +kernel

theorem witness_SignCommitsAnAcceptedDraw :
    (holding 1).draw = some 1#256 ∧ 1 ≤ (1#256).toNat ∧ (1#256).toNat < groupOrder ∧
    pScalar (1#256).toNat basePoint = some (.fin gxLit gyLit) ∧ gxLit % groupOrder ≠ 0 ∧
    inv (1#256).toNat groupOrder * ((holding 1).snap.e.toNat + (holding 1).snap.d.toNat * (gxLit % groupOrder)) % groupOrder ≠ 0 := by
  decide +kernel

/-- The rejections 0 and n, V-S4's (s = 0), at the cap and below it. -/
theorem witness_SignRejectsAndRetriesUpToTheCap :
    (holding 0).draw = some 0#256 ∧ (0#256).toNat = 0 ∧
    (holding nLit).draw = some (wordOf nLit) ∧ groupOrder ≤ (wordOf nLit).toNat ∧
    { holding 1 with snap := ⟨wordOf (nLit - gxLit), 1#256⟩ }.draw = some 1#256 ∧
    pScalar (1#256).toNat basePoint = some (.fin gxLit gyLit) ∧
    inv (1#256).toNat groupOrder * ((wordOf (nLit - gxLit)).toNat + (1#256).toNat * (gxLit % groupOrder)) % groupOrder = 0 ∧
    (holding 0).attempts + 1 ≠ (holding 0).cfg.signMaxAttempts ∧
    { holding 0 with attempts := 1 }.attempts + 1 = { holding 0 with attempts := 1 }.cfg.signMaxAttempts := by decide +kernel

theorem witness_SignResultsLieInRange :
    (2 : WIdx) ≠ 3 ∧ (holding 1).draw.isSome = true ∧
      ∃ t, exec (.sign 2 3 0 1) (holding 1) = .next t ∧ (t.eng == .idle && t.errCode == .none) = true :=
  ⟨by decide, rfl, next_of_ends (by decide +kernel)⟩

theorem witness_AcceptedNonceGivesAFinitePoint : 1 ≤ groupOrder - 1 ∧ groupOrder - 1 < groupOrder := by decide +kernel

/-- A waiting SIGN with two draws left: 0, which is rejected, and 1, which is accepted. -/
theorem witness_SignEndsWithinTheCap :
    waiting.Inv ∧ waiting.eng = .waitEntropy ∧
      [Vector.replicate 32 0#8, (Vector.replicate 32 0#8).set 31 1#8].length = waiting.cfg.signMaxAttempts - waiting.attempts ∧
      [Vector.replicate 32 0#8, (Vector.replicate 32 0#8).set 31 1#8].all
        (fun b => signDraw (drawOf b).toNat waiting.snap.e.toNat waiting.snap.d.toNat != .noX) = true := by
  decide +kernel

theorem witness_OnlyARunningSignRequestsEntropy :
    (∃ t, exec (.sign 2 3 0 1) ready = .next t ∧ t.entReq = true) ∧
    (∃ t, exec (.sign 2 3 0 4) ready = .next t ∧ (t.errCode != .none && ready.errCode == .none) = true) :=
  ⟨next_of_ends (by decide +kernel), next_of_ends (by decide +kernel)⟩

theorem witness_DerWritesTheEncoding :
    (load [(15, 0), (0, maxWord)]).valid.getLsbD (15 : WIdx).val = true ∧
      (load [(15, 0), (0, maxWord)]).valid.getLsbD (0 : WIdx).val = true := by decide +kernel

theorem witness_DerLengthsAreBounded : (wordOf (2 ^ 255 - 1)).toNat < 2 ^ 255 := by decide +kernel

/-- A failed command that is no SIGN, and a SIGN that reaches the cap. -/
theorem witness_ErrorsArePrecise :
    (∃ t, exec (.finv .p 1 0) (load [(0, pLit)]) = .next t ∧ (t.eng == .idle && t.errCode != .none) = true) ∧
    (∃ t, exec (.sign 2 3 0 1) { holding 0 with attempts := 1 } = .next t ∧ (t.eng == .idle && t.errCode != .none) = true) :=
  ⟨next_of_ends (by decide +kernel), next_of_ends (by decide +kernel)⟩

theorem witness_ErrorCodesPerCommand : ∃ t, exec (.sign 2 3 0 1) (holding 1) = .next t ∧ (t.eng == .idle) = true :=
  next_of_ends (by decide +kernel)

theorem witness_CompletionRaisesTheInterrupt :
    ∃ t, exec (.der 0 1) { load [(0, 1), (1, 1)] with ie := true } = .next t ∧ (t.eng == .idle) = true :=
  next_of_ends (by decide +kernel)

theorem witness_AcknowledgeClearsDone : { State.reset with ie := true, done := true }.rst = false := rfl

/-- The first and the last offset of each group. -/
theorem witness_BusyWritesAreDropped :
    waiting.rst = false ∧ waiting.busy = true ∧
    droppedWhileBusy 0x008 ∧ droppedWhileBusy 0x014 ∧ droppedWhileBusy 0x100 ∧ droppedWhileBusy 0x2FC ∧ 0x2FC % 4 = 0 ∧
    (0x1#32).getLsbD 1 = false ∧ (0x3#32).getLsbD 1 = true ∧
    ignoresWrites 0x018 ∧ ignoresWrites 0x0FC ∧ ignoresWrites 0x300 ∧ ignoresWrites 0xFFC ∧ 0xFFC % 4 = 0 := by
  unfold droppedWhileBusy ignoresWrites
  decide +kernel

theorem witness_ReadsHaveNoSideEffect : waiting.rst = false := rfl

/-- A byte write, a 64-bit read and a misaligned read, at the ends of the window. -/
theorem witness_OtherAccessesGetABusError :
    ready.rst = false ∧ ready.cfg.base ≤ (Access.write 0x10000 1 5#32).addr ∧ (Access.write 0x10000 1 5#32).size ≠ 4 ∧
    (Access.read 0x10FF8 8).addr < ready.cfg.base + 4096 ∧ (Access.read 0x10FF8 8).size ≠ 4 ∧
    (Access.read 0x10FFF 4).addr < ready.cfg.base + 4096 ∧ ((Access.read 0x10FFF 4).addr - ready.cfg.base) % 4 ≠ 0 := by
  decide +kernel

theorem witness_ReservedOffsetsReadZero :
    ready.rst = false ∧ (0x020 ≤ 0x020 ∧ 0x020 < 0x100) ∧ (0x020 ≤ 0x0FC ∧ 0x0FC < 0x100) ∧ 0x0FC % 4 = 0 ∧
      (0x348 ≤ 0x348 ∧ 0x348 < 0x1000) ∧ (0x348 ≤ 0xFFC ∧ 0xFFC < 0x1000) ∧ 0x348 % 4 = 0 ∧ 0xFFC % 4 = 0 := by decide +kernel

theorem witness_WordWritesLoadARegister :
    ready.rst = false ∧ ready.eng = .idle ∧ (0 : Lane) ≠ 7 ∧ (List.finRange 8).reverse.Perm (List.finRange 8) :=
  ⟨rfl, rfl, by decide, List.reverse_perm _⟩

theorem witness_DerBufferReadsLittleEndian : waiting.rst = false := rfl

theorem witness_StatusReadsItsFields : waiting.rst = false := rfl

theorem witness_RegisterReadsAndIdleWrites : ready.rst = false ∧ ready.eng = .idle := ⟨rfl, rfl⟩

/-- A rejected draw: the SIGN stays in flight. -/
theorem witness_ReadsAreStableWhileBusy :
    (holding 0).rst = false ∧ (holding 0).busy = true ∧
      ∃ t, perform .engine (holding 0) = .next t ∧ t.busy = true :=
  ⟨rfl, rfl, next_of_ends (by decide +kernel)⟩

theorem witness_DeliveryHandsOverTheDraw : waiting.rst = false ∧ waiting.eng = .waitEntropy := by decide +kernel

theorem witness_UnrequestedDeliveryIsDiscarded : ready.eng ≠ .waitEntropy ∧ (3#32).getLsbD 1 = true := by decide +kernel

theorem witness_SoftResetRestoresEverything : waiting.rst = false ∧ (2#32).getLsbD 1 = true ∧ (3#32).getLsbD 1 = true := by
  decide +kernel

theorem witness_HardwareResetHoldsTheBlock :
    waiting.assertRst.rst = true ∧ Event.engine ≠ .assertRst ∧ Event.engine ≠ .releaseRst := by decide +kernel

theorem witness_AfterResetNothingIsReadable :
    waiting.rst = false ∧ 0xFFC % 4 = 0 ∧ 0xFFC < 4096 ∧ Instr.der 0 1 ≠ .nop ∧ isSign (.der 0 1) = false ∧ 1#32 ≠ 0#32 := by
  decide +kernel

/-- A SIGN that waits, one that holds a draw, and a block in hardware reset, each with its step. -/
theorem witness_EveryStepKeepsTheInvariant :
    ({ waiting with agenda := [.entropy (Vector.replicate 32 0#8)] }.Inv ∧
      ∃ t, step { waiting with agenda := [.entropy (Vector.replicate 32 0#8)] } = .next t ∧ true = true) ∧
    ((holding 1).Inv ∧ ∃ t, step (holding 1) = .next t ∧ true = true) ∧
    (waiting.assertRst.Inv ∧ ∃ t, step waiting.assertRst = .next t ∧ true = true) :=
  ⟨⟨by decide +kernel, next_of_ends (p := fun _ => true) (by decide +kernel)⟩,
    ⟨by decide +kernel, next_of_ends (p := fun _ => true) (by decide +kernel)⟩,
    ⟨by decide +kernel, next_of_ends (p := fun _ => true) (by decide +kernel)⟩⟩

end Sys2Proof.Tests
end

section
/-! PROOFS. The bounds of a DER encoding that the DER buffer's invariant rests on (R138, R139). -/

namespace Sys2Proof.Machine

@[simp] theorem wordBytes_length (v : Word) : (wordBytes v).length = 32 := by simp [wordBytes]

/-- `be_bytes` keeps at least one and at most the 32 bytes of the word (R135). -/
theorem beBytes_length (v : Word) : 1 ≤ (beBytes v).length ∧ (beBytes v).length ≤ 32 := by
  have hle := ((wordBytes v).dropWhile_suffix (fun b => b == 0#8)).length_le
  rw [wordBytes_length] at hle
  unfold beBytes
  split
  · simp
  · next b bs hb =>
    rw [hb] at hle
    exact ⟨by simp, hle⟩

/-- The sign pad is one byte or none (R135). -/
theorem padSign_length (bs : List Byte) : bs.length ≤ (padSign bs).length ∧ (padSign bs).length ≤ bs.length + 1 := by
  cases bs with
  | nil => simp [padSign]
  | cons b bs => simp only [padSign]; split_ifs <;> simp

/-- One INTEGER is its tag, its length byte and 1 to 33 content bytes (R139). -/
theorem derInt_length (v : Word) : 3 ≤ (derInt v).length ∧ (derInt v).length ≤ 35 := by
  have hbytes := beBytes_length v
  have hpad := padSign_length (beBytes v)
  simp only [derInt, List.length_cons]
  omega

/-- The whole encoding is the outer tag and length byte and the two INTEGERs (R136). -/
theorem derSig_length (r sv : Word) : (derSig r sv).length = 2 + (derInt r).length + (derInt sv).length := by
  simp only [derSig, List.length_cons, List.length_append]
  omega

/-- An encoding has 8 to 72 bytes, so it fits in the buffer and in the 7 bits of DER_LEN (R139). -/
theorem derSig_length_bounds (r sv : Word) : 8 ≤ (derSig r sv).length ∧ (derSig r sv).length ≤ 72 := by
  have hr := derInt_length r
  have hs := derInt_length sv
  rw [derSig_length]
  omega

end Sys2Proof.Machine
end

section
/-! PROOFS. What one engine step of a command can come to, over all commands. -/

namespace Sys2Proof.Machine

open Sys2Proof.Claim

theorem fieldCommand_ending (m : Modulus) (rd ra rb : WIdx) (f : Int → Int → Int) (s : State) :
    ∃ t, fieldCommand m rd ra rb f s = .next t ∧ Ending s t := by
  unfold fieldCommand
  exact withW_ending (withW_ending ⟨_, rfl, .scalar _ _⟩)

theorem execFinv_ending (m : Modulus) (rd ra : WIdx) (s : State) : ∃ t, execFinv m rd ra s = .next t ∧ Ending s t := by
  unfold execFinv
  refine withW_ending ?_
  split_ifs
  · exact ⟨_, rfl, .scalar _ _⟩
  · exact ⟨_, rfl, .error _ (.inr rfl)⟩

/-- A command other than SIGN ends in its one step, in one of the ways of `Ending` (R90). -/
theorem exec_ending {i : Instr} (hi : isSign i = false) (s : State) : ∃ t, exec i s = .next t ∧ Ending s t := by
  cases i with
  | nop => exact ⟨_, rfl, .nothing⟩
  | fadd m rd ra rb => exact fieldCommand_ending m rd ra rb _ s
  | fsub m rd ra rb => exact fieldCommand_ending m rd ra rb _ s
  | fmul m rd ra rb => exact fieldCommand_ending m rd ra rb _ s
  | finv m rd ra => exact execFinv_ending m rd ra s
  | pdbl rd ra =>
    simp only [exec, execPdbl]
    exact withPt_ending ⟨_, rfl, .point _ _⟩
  | padd rd ra rb =>
    simp only [exec, execPadd]
    exact withPt_ending (withPt_ending (commitPtOrRaise_ending _ _ _))
  | pmul rd ra rb =>
    simp only [exec, execPmul]
    exact withW_ending (withPt_ending (commitPtOrRaise_ending _ _ _))
  | pmulG rd ra =>
    simp only [exec, execPmulG]
    exact withW_ending (commitPtOrRaise_ending _ _ _)
  | pchk rd ra =>
    simp only [exec, execPchk]
    exact withPt_ending ⟨_, rfl, .scalar _ _⟩
  | sign wr ws we wd => cases hi
  | der wr ws =>
    simp only [exec, execDer]
    exact withW_ending (withW_ending ⟨_, rfl, .encoding _ _⟩)

/-- A command's step is a step of SIGN, or ends the command in one of the ways of `Ending`. -/
theorem exec_cases {i : Instr} {s t : State} (h : exec i s = .next t) :
    (∃ wr ws we wd, i = .sign wr ws we wd ∧ execSign wr ws we wd s = .next t) ∨ (isSign i = false ∧ Ending s t) := by
  cases hi : isSign i with
  | false =>
    obtain ⟨u, hu, hend⟩ := exec_ending hi s
    obtain rfl : t = u := by rw [hu] at h; cases h; rfl
    exact .inr ⟨rfl, hend⟩
  | true =>
    obtain ⟨wr, ws, we, wd, rfl⟩ : ∃ wr ws we wd, i = .sign wr ws we wd := by
      cases i <;> simp [isSign] at hi ⊢
    exact .inl ⟨wr, ws, we, wd, rfl, h⟩

end Sys2Proof.Machine
end

section
/-! PROOFS. The invariant of the block: what each step of each agent keeps of it (R36, R63, R86, R127, R138, R166). -/

namespace Sys2Proof.Machine

open Sys2Proof.Claim

/-! The parts of the invariant. -/

/-- A reset is held trivially while `RST` is released. -/
theorem resetHeld_of_released {s : State} (hr : s.rst = false) : s.ResetHeld := by simp [hr]

/-- An encoding in the DER buffer is a lawful one, with zeros after it (R138). -/
theorem derOk_putDer {s : State} (h : s.DerOk) (r sv : Word) : (s.putDer (derSig r sv)).DerOk := by
  obtain ⟨-, -, hdraws⟩ := h
  obtain ⟨hlo, hhi⟩ := derSig_length_bounds r sv
  have hlen : ((s.putDer (derSig r sv)).derLen).toNat = (derSig r sv).length := by
    simp only [State.putDer_derLen, BitVec.toNat_ofNat]
    omega
  refine ⟨.inr (by omega), fun b hb => ?_, hdraws⟩
  rw [hlen] at hb
  simp [List.getD_eq_getElem?_getD, List.getElem?_eq_none hb]

/-- SIGN_DRAWS takes a count that the cap allows (R34). -/
theorem derOk_putDraws {s : State} {k : Nat} (h : s.DerOk) (hk : k ≤ s.cfg.signMaxAttempts) : (s.putDraws k).DerOk := by
  obtain ⟨hlen, hzero, -⟩ := h
  refine ⟨hlen, hzero, ?_⟩
  simp only [State.putDraws_signDraws, State.putDraws_cfg, BitVec.toNat_ofNat]
  exact (Nat.mod_le _ _).trans hk

/-- A sound snapshot belongs to a latched SIGN. -/
theorem State.SnapOk.decode_sign {s : State} (h : s.SnapOk) : ∃ wr ws we wd, decode s.cur = .row (.sign wr ws we wd) := by
  unfold State.SnapOk State.signOperands at h
  split at h
  · next wr ws we wd hd => exact ⟨wr, ws, we, wd, hd⟩
  · simp at h

/-- What a sound snapshot of a latched SIGN says of its operands (R63, R125). -/
theorem snapOk_iff {s : State} {wr ws we wd : WIdx} (hd : decode s.cur = .row (.sign wr ws we wd)) :
    s.SnapOk ↔ s.msgLen ≠ 0#32 ∧ s.isValid we = true ∧ s.isValid wd = true ∧ s.snap = ⟨s.wReg we, s.wReg wd⟩ := by
  simp [State.SnapOk, State.signOperands, hd]

/-- An idle block with no request and no draw meets the invariant as soon as its counts and its DER state do. -/
theorem inv_of_idle {s : State} (hc : s.cfg.Ok) (hr : s.rst = false) (he : s.eng = .idle) (hq : s.entReq = false)
    (hd : s.draw = none) (ha : s.attempts ≤ s.cfg.signMaxAttempts) (hder : s.DerOk) : s.Inv := by
  refine ⟨hc, ⟨?_, ?_, ?_⟩, ⟨ha, ?_⟩, hder, resetHeld_of_released hr⟩
  · simp [hq, he]
  · simp [hd]
  · simp [he]
  · simp [State.signing, he, hd]

/-- In an idle block that meets the invariant, no entropy is requested and no draw is held. -/
theorem State.Inv.idle_entropy {s : State} (h : s.Inv) (he : s.eng = .idle) : s.entReq = false ∧ s.draw = none := by
  obtain ⟨-, ⟨hreq, hdraw, -⟩, -⟩ := h
  constructor
  · simpa [he] using hreq
  · simpa [he] using hdraw

/-- A command other than SIGN runs with no draw held. -/
theorem State.Inv.draw_eq_none {s : State} (h : s.Inv) (hd : ∀ wr ws we wd, decode s.cur ≠ .row (.sign wr ws we wd)) :
    s.draw = none := by
  obtain ⟨-, -, ⟨-, hsign⟩, -⟩ := h
  by_contra hne
  obtain ⟨-, hsnap⟩ := hsign (.inr (Option.isSome_iff_ne_none.mpr hne))
  obtain ⟨wr, ws, we, wd, hs⟩ := hsnap.decode_sign
  exact hd wr ws we wd hs

/-- The reset block meets the invariant, whatever its surroundings (R39). -/
theorem inv_resetBlock {s : State} (hc : s.cfg.Ok) : s.resetBlock.Inv := by
  refine ⟨hc, by simp [State.EngineOk, State.reset], by simp [State.SignOk, State.signing, State.reset], ?_, fun _ => rfl⟩
  refine ⟨.inl rfl, fun b _ => ?_, Nat.zero_le _⟩
  simp [State.reset]

/-- The agenda, the bus response and the count of free values are no part of the invariant. -/
theorem State.Inv.with_surroundings {s : State} (h : s.Inv) (a : List Event) (r : Response) (c : Nat) :
    { s with agenda := a, resp := r, freeCount := c }.Inv := by
  obtain ⟨hc, heng, hsign, hder, hheld⟩ := h
  refine ⟨hc, heng, hsign, hder, fun hr => ?_⟩
  have hs : s = s.resetBlock := hheld hr
  rw [hs]
  rfl

/-! Host accesses. -/

/-- What a write that is dropped while busy keeps: what OVR does not concern, and what the performed write keeps in an idle
block (R57). -/
theorem unlessBusy_induction {p : State → Prop} {s t : State} (hovr : p { s with ovr := true }) (ht : s.eng = .idle → p t) :
    p (s.unlessBusy t) := by
  unfold State.unlessBusy
  split_ifs with hb
  · exact hovr
  · exact ht (by simpa [State.busy] using hb)

/-- A write to STATUS clears DONE or OVR or both, and nothing else (R28). -/
theorem writeStatus_eq (s : State) (v : Bus) :
    s.writeStatus v = { s with done := s.done && !v.getLsbD 1, ovr := s.ovr && !v.getLsbD 3 } := by
  unfold State.writeStatus
  cases v.getLsbD 1 <;> cases v.getLsbD 3 <;> simp [State.acknowledge]

theorem writeLoc_cfg (s : State) (v : Bus) (l : Loc) : (s.writeLoc v l).cfg = s.cfg := by
  cases l with
  | ctrl => simp only [State.writeLoc, State.writeCtrl]; split_ifs <;> rfl
  | status => simp only [State.writeLoc, writeStatus_eq]
  | cmd => exact unlessBusy_induction (p := fun t => t.cfg = s.cfg) rfl fun _ => rfl
  | msgLen => exact unlessBusy_induction (p := fun t => t.cfg = s.cfg) rfl fun _ => rfl
  | wValid => exact unlessBusy_induction (p := fun t => t.cfg = s.cfg) rfl fun _ => s.zeroise_cfg v
  | pinf => exact unlessBusy_induction (p := fun t => t.cfg = s.cfg) rfl fun _ => rfl
  | wWord i j => exact unlessBusy_induction (p := fun t => t.cfg = s.cfg) rfl fun _ => rfl
  | derLen | signDraws | derWord _ | reserved => rfl

/-- A word issued to an idle block starts with nothing done, no error and no draw (R86). -/
theorem State.Inv.issue {s : State} (h : s.Inv) (hr : s.rst = false) (he : s.eng = .idle) (v : Bus) : (s.issue v).Inv := by
  obtain ⟨hq, hd⟩ := h.idle_entropy he
  obtain ⟨hc, -, -, hder, -⟩ := h
  refine ⟨hc, ?_, ⟨Nat.zero_le _, ?_⟩, hder, resetHeld_of_released hr⟩
  · simp [State.EngineOk, hq, hd]
  · simp [State.signing, hd]

/-- What the host stores in an idle block's registers is no part of the invariant (R57). -/
theorem State.Inv.with_registers {s : State} (h : s.Inv) (hr : s.rst = false) (he : s.eng = .idle) (w : Vector Word 16)
    (valid : BitVec 16) (pinf : BitVec 8) (msgLen : Bus) :
    { s with w := w, valid := valid, pinf := pinf, msgLen := msgLen }.Inv := by
  obtain ⟨hq, hd⟩ := h.idle_entropy he
  obtain ⟨hc, -, ⟨ha, -⟩, hder, -⟩ := h
  exact inv_of_idle hc hr he hq hd ha hder

/-- A write to a location of the window, with `RST` released, keeps the invariant. -/
theorem State.Inv.writeLoc {s : State} (h : s.Inv) (hr : s.rst = false) (v : Bus) (l : Loc) : (s.writeLoc v l).Inv := by
  have ⟨hc, heng, hsign, hder, _⟩ := h
  have hovr : { s with ovr := true }.Inv := ⟨hc, heng, hsign, hder, resetHeld_of_released hr⟩
  cases l with
  | ctrl =>
    simp only [State.writeLoc, State.writeCtrl]
    split_ifs
    · exact inv_resetBlock hc
    · exact ⟨hc, heng, hsign, hder, resetHeld_of_released hr⟩
  | status =>
    obtain ⟨hreq, hdraw, hbusy⟩ := heng
    rw [State.writeLoc, writeStatus_eq]
    refine ⟨hc, ⟨hreq, hdraw, fun he => ?_⟩, hsign, hder, resetHeld_of_released hr⟩
    obtain ⟨hdone, herr⟩ := hbusy he
    exact ⟨by simp [hdone], herr⟩
  | cmd => exact unlessBusy_induction hovr fun he => h.issue hr he v
  | msgLen | wValid | pinf | wWord i j =>
    exact unlessBusy_induction hovr fun he => h.with_registers hr he _ _ _ _
  | derLen | signDraws | derWord _ | reserved => exact h

/-- A host access keeps the invariant, and the parameters. -/
theorem State.Inv.hostAccess {s : State} (h : s.Inv) (a : Access) : (s.hostAccess a).Inv ∧ (s.hostAccess a).cfg = s.cfg := by
  rcases hostAccess_cases s a with ⟨r, c, e⟩ | ⟨hr, v, l, e⟩
  · rw [e]
    exact ⟨h.with_surroundings s.agenda r c, rfl⟩
  · rw [e]
    exact ⟨(h.writeLoc hr v l).with_surroundings _ .done _, writeLoc_cfg s v l⟩

/-! The engine. -/

/-- What stands of the invariant within an engine step, between the taking of its draw, if it has one, and the step's end. -/
structure State.MidStep (s : State) : Prop where
  cfg : s.cfg.Ok
  rst : s.rst = false
  draw : s.draw = none
  attempts : s.attempts ≤ s.cfg.signMaxAttempts
  der : s.DerOk

theorem State.MidStep.putW {s : State} (h : s.MidStep) (i : WIdx) (v : Word) : (s.putW i v).MidStep :=
  ⟨h.cfg, h.rst, h.draw, h.attempts, h.der⟩

theorem State.MidStep.putPt {s : State} (h : s.MidStep) (j : PIdx) (q : Point) : (s.putPt j q).MidStep :=
  ⟨h.cfg, h.rst, h.draw, h.attempts, h.der⟩

theorem State.MidStep.putDer {s : State} (h : s.MidStep) (r sv : Word) : (s.putDer (derSig r sv)).MidStep :=
  ⟨h.cfg, h.rst, h.draw, h.attempts, derOk_putDer h.der r sv⟩

theorem State.MidStep.putDraws {s : State} {k : Nat} (h : s.MidStep) (hk : k ≤ s.cfg.signMaxAttempts) : (s.putDraws k).MidStep :=
  ⟨h.cfg, h.rst, h.draw, h.attempts, derOk_putDraws h.der hk⟩

/-- A completion, success or error, ends an engine step in the invariant (R95). -/
theorem State.MidStep.complete {s : State} (h : s.MidStep) (code : ErrCode) : (s.complete code).Inv :=
  inv_of_idle h.cfg h.rst rfl rfl h.draw h.attempts h.der

/-- A request for a draw ends an engine step in the invariant, as long as draws are left (R127). -/
theorem State.MidStep.requestDraw {s : State} (h : s.MidStep) (hbusy : s.done = false ∧ s.errCode = .none)
    (hleft : s.attempts < s.cfg.signMaxAttempts) (hsnap : s.SnapOk) : s.requestDraw.Inv := by
  refine ⟨h.cfg, ?_, ⟨h.attempts, fun _ => ⟨hleft, hsnap⟩⟩, h.der, resetHeld_of_released h.rst⟩
  simp [State.EngineOk, h.draw, hbusy]

/-- A command other than SIGN ends in the invariant. -/
theorem State.MidStep.ending {s t : State} (h : s.MidStep) (he : Ending s t) : t.Inv ∧ t.cfg = s.cfg := by
  cases he with
  | error code _ => exact ⟨h.complete code, rfl⟩
  | nothing => exact ⟨h.complete .none, rfl⟩
  | scalar rd v => exact ⟨(h.putW rd _).complete .none, rfl⟩
  | point rd q => exact ⟨(h.putPt rd q).complete .none, rfl⟩
  | encoding r sv => exact ⟨(h.putDer r sv).complete .none, rfl⟩

/-- SIGN's check step keeps the invariant: an error, or the first request with a snapshot of readable operands (R125). -/
theorem State.MidStep.signCheck {s : State} {wr ws we wd : WIdx} (h : s.MidStep) (hbusy : s.done = false ∧ s.errCode = .none)
    (hdec : decode s.cur = .row (.sign wr ws we wd)) : (signCheck we wd s).Inv ∧ (signCheck we wd s).cfg = s.cfg := by
  rcases signCheck_cases we wd s with ⟨code, -, e⟩ | ⟨hmsg, hvd, hve, e⟩ <;> rw [e]
  · exact ⟨(h.putDraws (Nat.zero_le _)).complete code, rfl⟩
  · obtain ⟨-, hcap, -⟩ := h.cfg
    refine ⟨State.MidStep.requestDraw ⟨h.cfg, h.rst, h.draw, Nat.zero_le _, h.der⟩ hbusy hcap ?_, rfl⟩
    exact (snapOk_iff (s := { s with snap := ⟨s.wReg we, s.wReg wd⟩, attempts := 0 }) hdec).mpr ⟨hmsg, hve, hvd, rfl⟩

/-- A rejected draw keeps the invariant: RETRY_LIMIT at the cap, a request below it (R127). -/
theorem State.MidStep.signReject {s : State} (h : s.MidStep) (hbusy : s.done = false ∧ s.errCode = .none) (hsnap : s.SnapOk) :
    (signReject s).Inv ∧ (signReject s).cfg = s.cfg := by
  rcases signReject_cases s with ⟨-, e⟩ | ⟨hne, e⟩ <;> rw [e]
  · exact ⟨(h.putDraws h.attempts).complete _, rfl⟩
  · exact ⟨h.requestDraw hbusy (lt_of_le_of_ne h.attempts hne) hsnap, rfl⟩

/-- SIGN's commit ends in the invariant (R132). -/
theorem State.MidStep.signCommit {s : State} (h : s.MidStep) (wr ws : WIdx) (r sv : Nat) : (signCommit wr ws r sv s).Inv :=
  ((((h.putW wr _).putW ws _).putDer _ _).putDraws h.attempts).complete .none

/-- The taking of a held draw counts it, within the cap (R126). -/
theorem State.Inv.takeDraw {s : State} (h : s.Inv) (hr : s.rst = false) (hd : s.draw.isSome = true) :
    s.takeDraw.MidStep ∧ s.takeDraw.SnapOk := by
  obtain ⟨hc, -, ⟨-, hsign⟩, hder, -⟩ := h
  obtain ⟨hleft, hsnap⟩ := hsign (.inr hd)
  exact ⟨⟨hc, hr, rfl, hleft, hder⟩, hsnap⟩

/-- With no draw held, an engine step starts with what it needs of the invariant. -/
theorem State.Inv.midStep {s : State} (h : s.Inv) (hr : s.rst = false) (hd : s.draw = none) : s.MidStep := by
  obtain ⟨hc, -, ⟨ha, -⟩, hder, -⟩ := h
  exact ⟨hc, hr, hd, ha, hder⟩

/-- A step of a latched SIGN keeps the invariant. -/
theorem State.Inv.execSign {s t : State} {wr ws we wd : WIdx} (h : s.Inv) (hr : s.rst = false) (he : s.eng = .run)
    (hdec : decode s.cur = .row (.sign wr ws we wd)) (ht : execSign wr ws we wd s = .next t) : t.Inv ∧ t.cfg = s.cfg := by
  obtain ⟨-, ⟨-, -, hrun⟩, -⟩ := id h
  have hbusy := hrun (by simp [he])
  rcases execSign_next ht with ⟨hd, rfl⟩ | ⟨k, hd, hcase⟩
  · exact (h.midStep hr hd).signCheck hbusy hdec
  · obtain ⟨hmid, hsnap⟩ := h.takeDraw hr (by simp [hd])
    rcases hcase with rfl | ⟨r, sv, -, rfl⟩ | ⟨-, rfl⟩
    · exact hmid.signReject hbusy hsnap
    · exact ⟨hmid.signCommit wr ws r sv, rfl⟩
    · exact ⟨(hmid.putDraws hmid.attempts).complete _, rfl⟩

/-- The engine's step on the latched word keeps the invariant. -/
theorem State.Inv.runWord {s t : State} (h : s.Inv) (hr : s.rst = false) (he : s.eng = .run) (ht : runWord s = .next t) :
    t.Inv ∧ t.cfg = s.cfg := by
  cases hdec : decode s.cur with
  | illegal =>
    have hd : s.draw = none := h.draw_eq_none (by simp [hdec])
    rw [runWord_illegal hdec] at ht
    cases ht
    exact ⟨(h.midStep hr hd).complete _, rfl⟩
  | row i =>
    rw [runWord_row hdec] at ht
    rcases exec_cases ht with ⟨wr, ws, we, wd, rfl, hsign⟩ | ⟨hi, hend⟩
    · exact h.execSign hr he hdec hsign
    · have hd : s.draw = none := by
        refine h.draw_eq_none fun wr ws we wd hs => ?_
        rw [hdec, Decoded.row.injEq] at hs
        simp [hs, isSign] at hi
      exact (h.midStep hr hd).ending hend

/-- The engine's turn keeps the invariant. -/
theorem State.Inv.engineTurn {s t : State} (h : s.Inv) (ht : engineTurn s = .next t) : t.Inv ∧ t.cfg = s.cfg := by
  by_cases hrun : s.rst = false ∧ s.eng = .run
  · obtain ⟨hr, he⟩ := hrun
    rw [engineTurn_run hr he] at ht
    exact h.runWord hr he ht
  · rw [not_and_or, Bool.not_eq_false] at hrun
    rw [engineTurn_still hrun] at ht
    cases ht
    exact ⟨h, rfl⟩

/-! The other agents. -/

/-- A delivery keeps the invariant: the draw is held in RUN, with the snapshot it is for (R66). -/
theorem State.Inv.deliver {s : State} (h : s.Inv) (b : Vector Byte 32) : (s.deliver b).Inv ∧ (s.deliver b).cfg = s.cfg := by
  by_cases hwait : s.rst = false ∧ s.eng = .waitEntropy
  · obtain ⟨hr, he⟩ := hwait
    obtain ⟨hc, ⟨-, -, hbusy⟩, ⟨ha, hsign⟩, hder, -⟩ := h
    rw [deliver_waiting hr he]
    refine ⟨⟨hc, ?_, ⟨ha, fun _ => hsign (.inl he)⟩, hder, resetHeld_of_released hr⟩, rfl⟩
    simp [State.EngineOk, hbusy (by simp [he])]
  · rw [not_and_or, Bool.not_eq_false] at hwait
    rw [deliver_still hwait]
    exact ⟨h, rfl⟩

/-- The assertion of `RST` leaves a block in reset, which meets the invariant (R166). -/
theorem inv_assertRst {s : State} (hc : s.cfg.Ok) : s.assertRst.Inv := by
  obtain ⟨-, heng, hsign, hder, -⟩ := inv_resetBlock (s := s) hc
  exact ⟨hc, heng, hsign, hder, fun _ => rfl⟩

/-- The release of `RST` keeps the invariant. -/
theorem State.Inv.releaseRst {s : State} (h : s.Inv) : s.releaseRst.Inv := by
  obtain ⟨hc, heng, hsign, hder, -⟩ := h
  exact ⟨hc, heng, hsign, hder, resetHeld_of_released rfl⟩

/-- Every agent's step keeps the invariant, and the parameters. -/
theorem State.Inv.perform {s t : State} (h : s.Inv) {e : Event} (ht : perform e s = .next t) : t.Inv ∧ t.cfg = s.cfg := by
  cases e with
  | engine => exact h.engineTurn ht
  | host a => cases ht; exact h.hostAccess a
  | entropy b => cases ht; exact h.deliver b
  | assertRst =>
    obtain ⟨hc, -⟩ := h
    cases ht
    exact ⟨inv_assertRst hc, rfl⟩
  | releaseRst => cases ht; exact ⟨h.releaseRst, rfl⟩

/-- Settles O60: the step is one agent's, which starts with the agenda moved on. -/
theorem everyStepKeepsTheInvariant : Obligations.EveryStepKeepsTheInvariant := by
  intro s t h ht
  cases hag : s.agenda with
  | nil =>
    rw [step_nil hag] at ht
    exact h.engineTurn ht
  | cons e rest =>
    rw [step_cons hag] at ht
    exact State.Inv.perform (s := { s with agenda := rest }) (h.with_surroundings rest s.resp s.freeCount) ht

/-- Settles O59: the reset state is its own block reset. -/
theorem invariantHoldsAtReset : Obligations.InvariantHoldsAtReset :=
  inv_resetBlock (s := State.reset) (by decide)

end Sys2Proof.Machine
end

section
/-! PROOFS. Arithmetic mod p read in the field of p elements, and with it the tangent and the chord rule of the point
functions (R8, R111, R112). -/

namespace Sys2Proof.Machine

/-! The field of p elements. -/

theorem fieldPrime_lt : fieldPrime < 2 ^ 256 := by norm_num [fieldPrime]

theorem groupOrder_lt : groupOrder < 2 ^ 256 := by norm_num [groupOrder]

/-- A number reduces to 0 mod p exactly when it is 0 in the field. -/
theorem mod_fieldPrime_eq_zero_iff (x : Nat) : x % fieldPrime = 0 ↔ (x : ZMod fieldPrime) = 0 := by
  rw [ZMod.natCast_eq_zero_iff, Nat.dvd_iff_mod_eq_zero]

/-- Two numbers have one residue mod p exactly when they are equal in the field. -/
theorem mod_fieldPrime_eq_iff (x y : Nat) : x % fieldPrime = y % fieldPrime ↔ (x : ZMod fieldPrime) = y :=
  (ZMod.natCast_eq_natCast_iff' x y fieldPrime).symm

/-- A positive number below p is not 0 in the field. -/
theorem cast_ne_zero_of_lt {k : Nat} (hpos : 0 < k) (hlt : k < fieldPrime) : (k : ZMod fieldPrime) ≠ 0 := by
  rw [Ne, ← mod_fieldPrime_eq_zero_iff, Nat.mod_eq_of_lt hlt]
  omega

theorem residue_fieldPrime_lt (z : Int) : residue z fieldPrime < fieldPrime := residue_lt z fieldPrime_prime.pos

theorem residue_fieldPrime_cast (z : Int) : (residue z fieldPrime : ZMod fieldPrime) = z := residue_cast z fieldPrime_prime.pos

/-- A residue mod p is 0 exactly when the integer is 0 in the field. -/
theorem residue_fieldPrime_eq_zero_iff (z : Int) : residue z fieldPrime = 0 ↔ (z : ZMod fieldPrime) = 0 := by
  rw [← residue_fieldPrime_cast, ← mod_fieldPrime_eq_zero_iff, Nat.mod_eq_of_lt (residue_fieldPrime_lt z)]

/-- `inv` of a number that is not 0 mod p is its inverse in the field (R8). -/
theorem inv_fieldPrime_cast [Fact fieldPrime.Prime] {x : Nat} (h : (x : ZMod fieldPrime) ≠ 0) :
    (inv x fieldPrime : ZMod fieldPrime) = (x : ZMod fieldPrime)⁻¹ :=
  inv_cast fieldPrime_lt (by rwa [Ne, mod_fieldPrime_eq_zero_iff])

theorem two_ne_zero_mod_fieldPrime : (2 : ZMod fieldPrime) ≠ 0 := by
  exact_mod_cast cast_ne_zero_of_lt (k := 2) (by norm_num) (by norm_num [fieldPrime])

/-! The point functions, read in the field. -/

/-- The point's coordinates are reduced, as a point function's computed result is. -/
def Point.Reduced : Point → Prop
  | .inf => True
  | .fin x y => x < fieldPrime ∧ y < fieldPrime

theorem pDouble_of_y_eq_zero {x y : Nat} (h : (y : ZMod fieldPrime) = 0) : pDouble (.fin x y) = .inf := by
  rw [← mod_fieldPrime_eq_zero_iff] at h
  simp [pDouble, h]

/-- The tangent rule of R111. -/
theorem pDouble_of_y_ne_zero [Fact fieldPrime.Prime] {x y : Nat} (h : (y : ZMod fieldPrime) ≠ 0) :
    ∃ x3 y3 : Nat, pDouble (.fin x y) = .fin x3 y3 ∧ (Point.fin x3 y3).Reduced ∧
      (x3 : ZMod fieldPrime) = (3 * x ^ 2 / (2 * y)) ^ 2 - 2 * x ∧
      (y3 : ZMod fieldPrime) = 3 * x ^ 2 / (2 * y) * (x - x3) - y := by
  have hy : y % fieldPrime ≠ 0 := by rwa [Ne, mod_fieldPrime_eq_zero_iff]
  have hden : ((2 * (y % fieldPrime) % fieldPrime : Nat) : ZMod fieldPrime) = 2 * y := by simp
  have hinv : (inv (2 * (y % fieldPrime) % fieldPrime) fieldPrime : ZMod fieldPrime) = (2 * (y : ZMod fieldPrime))⁻¹ := by
    rw [inv_fieldPrime_cast (by rw [hden]; exact mul_ne_zero two_ne_zero_mod_fieldPrime h), hden]
  simp only [pDouble, if_neg hy]
  generalize inv (2 * (y % fieldPrime) % fieldPrime) fieldPrime = t at hinv ⊢
  refine ⟨_, _, rfl, ⟨residue_fieldPrime_lt _, residue_fieldPrime_lt _⟩, ?_, ?_⟩
  · push_cast [residue_fieldPrime_cast, hinv, curveA, ZMod.natCast_mod]
    ring
  · push_cast [residue_fieldPrime_cast, hinv, curveA, ZMod.natCast_mod]
    ring

/-- Equal points are doubled (R112). -/
theorem pAdd_of_eq {x y x' y' : Nat} (hx : (x : ZMod fieldPrime) = x') (hy : (y : ZMod fieldPrime) = y') :
    pAdd (.fin x y) (.fin x' y') = some (pDouble (.fin x y)) := by
  rw [← mod_fieldPrime_eq_iff] at hx hy
  simp [pAdd, pDouble, hx, hy]

/-- Opposite points that differ add to INF (R112). -/
theorem pAdd_of_neg {x y x' y' : Nat} (hx : (x : ZMod fieldPrime) = x') (hne : (y : ZMod fieldPrime) ≠ y')
    (hneg : (y : ZMod fieldPrime) = -y') : pAdd (.fin x y) (.fin x' y') = some .inf := by
  have hsum : (y + y') % fieldPrime = 0 := by
    rw [mod_fieldPrime_eq_zero_iff, Nat.cast_add, hneg, neg_add_cancel]
  rw [Ne, ← mod_fieldPrime_eq_iff] at hne
  rw [← mod_fieldPrime_eq_iff] at hx
  simp [pAdd, hx, hne, hsum]

/-- The chord rule of R112. -/
theorem pAdd_of_x_ne [Fact fieldPrime.Prime] {x y x' y' : Nat} (h : (x : ZMod fieldPrime) ≠ x') :
    ∃ x3 y3 : Nat, pAdd (.fin x y) (.fin x' y') = some (.fin x3 y3) ∧ (Point.fin x3 y3).Reduced ∧
      (x3 : ZMod fieldPrime) = (((y' : ZMod fieldPrime) - y) / (x' - x)) ^ 2 - x - x' ∧
      (y3 : ZMod fieldPrime) = ((y' : ZMod fieldPrime) - y) / (x' - x) * (x - x3) - y := by
  have hx : x % fieldPrime ≠ x' % fieldPrime := by rwa [Ne, mod_fieldPrime_eq_iff]
  have hden : (residue ((x' % fieldPrime : Nat) - (x % fieldPrime : Nat) : Int) fieldPrime : ZMod fieldPrime) = x' - x := by
    simp [residue_fieldPrime_cast]
  have hinv : (inv (residue ((x' % fieldPrime : Nat) - (x % fieldPrime : Nat) : Int) fieldPrime) fieldPrime : ZMod fieldPrime) =
      ((x' : ZMod fieldPrime) - x)⁻¹ := by
    rw [inv_fieldPrime_cast (by rw [hden]; exact sub_ne_zero.mpr h.symm), hden]
  simp only [pAdd, if_neg hx]
  generalize inv (residue ((x' % fieldPrime : Nat) - (x % fieldPrime : Nat) : Int) fieldPrime) fieldPrime = t at hinv ⊢
  refine ⟨_, _, rfl, ⟨residue_fieldPrime_lt _, residue_fieldPrime_lt _⟩, ?_, ?_⟩
  · push_cast [residue_fieldPrime_cast, hinv, ZMod.natCast_mod]
    ring
  · push_cast [residue_fieldPrime_cast, hinv, ZMod.natCast_mod]
    ring

end Sys2Proof.Machine
end

section
/-! PROOFS. The point functions compute the group law of the curve `y^2 = x^3 + 7` over the field of p elements: Mathlib's
group of its affine points (R111 to R114). -/

namespace Sys2Proof.Machine

open WeierstrassCurve

/-! Scans over bits. -/

/-- One step of a scan over the bits of k from the top: double, and add P where the bit is set (R113). -/
theorem div_two_pow_smul {G : Type*} [AddCommGroup G] (k i : Nat) (P : G) :
    (k / 2 ^ i) • P =
      (k / 2 ^ (i + 1)) • P + (k / 2 ^ (i + 1)) • P + (if k.testBit i then P else 0) := by
  have hdiv : k / 2 ^ i = k / 2 ^ (i + 1) + k / 2 ^ (i + 1) + k / 2 ^ i % 2 := by
    rw [pow_succ, ← Nat.div_div_eq_div_mul]
    omega
  rw [hdiv, add_nsmul, add_nsmul, Nat.testBit_eq_decide_div_mod_eq]
  rcases Nat.mod_two_eq_zero_or_one (k / 2 ^ i) with hbit | hbit <;> simp [hbit]

/-! The curve and its group. -/

/-- The curve `y^2 = x^3 + 7` over the field of p elements (R18). -/
abbrev curve : WeierstrassCurve.Affine (ZMod fieldPrime) := ⟨0, 0, 0, 0, 7⟩

theorem curve_equation_iff (x y : ZMod fieldPrime) : curve.Equation x y ↔ y ^ 2 = x ^ 3 + 7 := by
  simp [Affine.equation_iff]

@[simp] theorem curve_negY (x y : ZMod fieldPrime) : curve.negY x y = -y := by simp [Affine.negY]

section
variable [Fact fieldPrime.Prime]

/-- The curve has no singular point. -/
theorem curve_nonsingular_iff (x y : ZMod fieldPrime) : curve.Nonsingular x y ↔ y ^ 2 = x ^ 3 + 7 := by
  have hdisc : curve.Δ ≠ 0 := by
    have h := neg_ne_zero.mpr (cast_ne_zero_of_lt (k := 21168) (by norm_num) (by norm_num [fieldPrime]))
    convert h using 1
    simp [WeierstrassCurve.Δ, WeierstrassCurve.b₂, WeierstrassCurve.b₄, WeierstrassCurve.b₆, WeierstrassCurve.b₈]
    norm_num
  rw [← Affine.equation_iff_nonsingular_of_Δ_ne_zero hdisc, curve_equation_iff]

/-- A finite point's equation, read in the field (R114). -/
theorem onCurve_fin_iff (x y : Nat) : onCurve (.fin x y) = true ↔ (y : ZMod fieldPrime) ^ 2 = (x : ZMod fieldPrime) ^ 3 + 7 := by
  rw [onCurve, beq_iff_eq, residue_fieldPrime_eq_zero_iff, ← sub_eq_zero (a := (y : ZMod fieldPrime) ^ 2)]
  push_cast [curveA, curveB]
  rw [show (y : ZMod fieldPrime) * y - (x * x * x + 0 * x + 7) = y ^ 2 - (x ^ 3 + 7) by ring]

/-- The model's point stands for the point P of the curve: INF for the zero of the group, a pair for its coordinates mod p. -/
def Point.Represents : Point → curve.Point → Prop
  | .inf, P => P = 0
  | .fin x y, P => ∃ h : curve.Nonsingular (x : ZMod fieldPrime) (y : ZMod fieldPrime), P = .some _ _ h

theorem represents_some {x y : Nat} {a b : ZMod fieldPrime} (h : curve.Nonsingular a b) (hx : (x : ZMod fieldPrime) = a)
    (hy : (y : ZMod fieldPrime) = b) : (Point.fin x y).Represents (.some a b h) := by
  subst hx hy
  exact ⟨h, rfl⟩

/-- A represented point lies on the curve. -/
theorem Point.Represents.onCurve {q : Point} {P : curve.Point} (h : q.Represents P) : onCurve q = true := by
  cases q with
  | inf => rfl
  | fin x y =>
    obtain ⟨hns, -⟩ := h
    exact (onCurve_fin_iff x y).mpr ((curve_nonsingular_iff _ _).mp hns)

/-- Every point on the curve represents one of the group. -/
theorem exists_represents {q : Point} (h : onCurve q = true) : ∃ P, q.Represents P := by
  cases q with
  | inf => exact ⟨0, rfl⟩
  | fin x y => exact ⟨_, (curve_nonsingular_iff _ _).mpr ((onCurve_fin_iff x y).mp h), rfl⟩

theorem neg_eq_self_iff (y : ZMod fieldPrime) : y = -y ↔ y = 0 := by
  rw [eq_neg_iff_add_eq_zero, ← two_mul, mul_eq_zero, or_iff_right two_ne_zero_mod_fieldPrime]

/-- Doubling in the group, by the tangent. -/
theorem curve_double {a b : ZMod fieldPrime} (h : curve.Nonsingular a b) (hb : b ≠ 0) :
    ∃ (a3 b3 : ZMod fieldPrime) (h3 : curve.Nonsingular a3 b3),
      Affine.Point.some a b h + .some a b h = .some a3 b3 h3 ∧
      a3 = (3 * a ^ 2 / (2 * b)) ^ 2 - 2 * a ∧ b3 = 3 * a ^ 2 / (2 * b) * (a - a3) - b := by
  have hneg : b ≠ curve.negY a b := by rwa [curve_negY, Ne, neg_eq_self_iff]
  have hslope : curve.slope a a b b = 3 * a ^ 2 / (2 * b) := by
    rw [Affine.slope_of_Y_ne rfl hneg]
    simp [two_mul]
  refine ⟨_, _, _, Affine.Point.add_self_of_Y_ne hneg, ?_, ?_⟩ <;> rw [hslope]
  · simp [Affine.addX]
    ring
  · simp [Affine.addY, Affine.negAddY, Affine.addX]
    ring

/-- Addition in the group of points with different x, by the chord. -/
theorem curve_add {a b a' b' : ZMod fieldPrime} (h : curve.Nonsingular a b) (h' : curve.Nonsingular a' b') (hne : a ≠ a') :
    ∃ (a3 b3 : ZMod fieldPrime) (h3 : curve.Nonsingular a3 b3),
      Affine.Point.some a b h + .some a' b' h' = .some a3 b3 h3 ∧
      a3 = ((b' - b) / (a' - a)) ^ 2 - a - a' ∧ b3 = (b' - b) / (a' - a) * (a - a3) - b := by
  have hslope : curve.slope a a' b b' = (b' - b) / (a' - a) := by
    rw [Affine.slope_of_X_ne hne, ← neg_sub, ← neg_sub a', neg_div_neg_eq]
  refine ⟨_, _, _, Affine.Point.add_of_X_ne hne, ?_, ?_⟩ <;> rw [hslope]
  · simp [Affine.addX]
  · simp [Affine.addY, Affine.negAddY, Affine.addX]
    ring

/-- `PDouble` doubles in the group (R111). -/
theorem Point.Represents.pDouble {q : Point} {P : curve.Point} (h : q.Represents P) : (pDouble q).Represents (P + P) := by
  cases q with
  | inf =>
    obtain rfl : P = 0 := h
    exact add_zero 0
  | fin x y =>
    obtain ⟨hns, rfl⟩ := h
    by_cases hy : (y : ZMod fieldPrime) = 0
    · rw [pDouble_of_y_eq_zero hy]
      exact Affine.Point.add_self_of_Y_eq (by simp [hy])
    · obtain ⟨x3, y3, e, -, hx3, hy3⟩ := pDouble_of_y_ne_zero (x := x) hy
      obtain ⟨a3, b3, h3, hsum, ha3, hb3⟩ := curve_double hns hy
      have hxa : (x3 : ZMod fieldPrime) = a3 := hx3.trans ha3.symm
      rw [e, hsum]
      exact represents_some h3 hxa (by rw [hy3, hb3, hxa])

/-- `PAdd` adds in the group, and never raises for two points of it (R112). -/
theorem Point.Represents.pAdd {q r : Point} {P Q : curve.Point} (hq : q.Represents P) (hr : r.Represents Q) :
    ∃ t, pAdd q r = some t ∧ t.Represents (P + Q) := by
  cases q with
  | inf =>
    obtain rfl : P = 0 := hq
    exact ⟨r, rfl, by rwa [zero_add]⟩
  | fin x y =>
  cases r with
  | inf =>
    obtain rfl : Q = 0 := hr
    exact ⟨_, rfl, by rwa [add_zero]⟩
  | fin x' y' =>
  by_cases hx : (x : ZMod fieldPrime) = x'
  · by_cases hy : (y : ZMod fieldPrime) = y'
    · have hPQ : P = Q := by
        obtain ⟨_, rfl⟩ := hq
        obtain ⟨_, rfl⟩ := hr
        simp [hx, hy]
      exact ⟨_, pAdd_of_eq hx hy, hPQ ▸ hq.pDouble⟩
    · obtain ⟨hns, rfl⟩ := hq
      obtain ⟨hns', rfl⟩ := hr
      have hneg : (y : ZMod fieldPrime) = curve.negY x' y' :=
        (Affine.Y_eq_of_X_eq hns.left hns'.left hx).resolve_left hy
      exact ⟨_, pAdd_of_neg hx hy (by rwa [curve_negY] at hneg), Affine.Point.add_of_Y_eq hx hneg⟩
  · obtain ⟨hns, rfl⟩ := hq
    obtain ⟨hns', rfl⟩ := hr
    obtain ⟨x3, y3, e, -, hx3, hy3⟩ := pAdd_of_x_ne (y := y) (y' := y') hx
    obtain ⟨a3, b3, h3, hsum, ha3, hb3⟩ := curve_add hns hns' hx
    have hxa : (x3 : ZMod fieldPrime) = a3 := hx3.trans ha3.symm
    refine ⟨_, e, ?_⟩
    rw [hsum]
    exact represents_some h3 hxa (by rw [hy3, hb3, hxa])

/-! Multiples. -/

/-- The scan of R113 ends in k times P, when it starts in the multiple that the bits above stand for. -/
theorem pScalarLoop_represents {p : Point} {P : curve.Point} (hp : p.Represents P) (k : Nat) :
    ∀ (i : Nat) (acc : Point), acc.Represents ((k / 2 ^ i) • P) →
      ∃ q, pScalarLoop k p i acc = some q ∧ q.Represents (k • P)
  | 0, acc, h => ⟨acc, rfl, by simpa using h⟩
  | i + 1, acc, h => by
    have hstep := div_two_pow_smul k i P
    rw [pScalarLoop]
    split_ifs with hbit
    · obtain ⟨q, e, hq⟩ := h.pDouble.pAdd hp
      rw [e]
      exact pScalarLoop_represents hp k i q (by rw [hstep, if_pos hbit]; exact hq)
    · exact pScalarLoop_represents hp k i _ (by rw [hstep, if_neg hbit, add_zero]; exact h.pDouble)

/-- `PScalar` multiplies in the group (R113). -/
theorem Point.Represents.pScalar {p : Point} {P : curve.Point} (hp : p.Represents P) {k : Nat} (hk : k < 2 ^ 256) :
    ∃ q, pScalar k p = some q ∧ q.Represents (k • P) :=
  pScalarLoop_represents hp k 256 .inf (by rw [Nat.div_eq_of_lt hk, zero_nsmul]; rfl)

end

/-! Reduced coordinates. -/

theorem pDouble_reduced (q : Point) : (pDouble q).Reduced := by
  cases q with
  | inf => trivial
  | fin x y =>
    simp only [pDouble]
    split_ifs
    · trivial
    · exact ⟨residue_fieldPrime_lt _, residue_fieldPrime_lt _⟩

theorem pAdd_reduced {p q r : Point} (hp : p.Reduced) (hq : q.Reduced) (h : pAdd p q = some r) : r.Reduced := by
  cases p with
  | inf => cases h; exact hq
  | fin x y =>
  cases q with
  | inf => cases h; exact hp
  | fin x' y' =>
    simp only [pAdd] at h
    split_ifs at h <;> cases h
    · exact pDouble_reduced _
    · trivial
    · exact ⟨residue_fieldPrime_lt _, residue_fieldPrime_lt _⟩

theorem pScalarLoop_reduced {k : Nat} {p q : Point} (hp : p.Reduced) :
    ∀ (i : Nat) (acc : Point), acc.Reduced → pScalarLoop k p i acc = some q → q.Reduced
  | 0, acc, hacc, h => by cases h; exact hacc
  | i + 1, acc, _, h => by
    rw [pScalarLoop] at h
    split_ifs at h
    · cases hadd : pAdd (pDouble acc) p with
      | none => simp [hadd] at h
      | some r =>
        rw [hadd] at h
        exact pScalarLoop_reduced hp i r (pAdd_reduced (pDouble_reduced acc) hp hadd) h
    · exact pScalarLoop_reduced hp i _ (pDouble_reduced acc) h

/-- A multiple of a reduced point has reduced coordinates (R112). -/
theorem pScalar_reduced {k : Nat} {p q : Point} (hp : p.Reduced) (h : pScalar k p = some q) : q.Reduced :=
  pScalarLoop_reduced hp 256 .inf trivial h

end Sys2Proof.Machine
end

section
/-! PROOFS. The base point has order n (R20). That n times G is the zero of the group is computed with the point's
coordinates scaled, `x = X/Z^2` and `y = Y/Z^3`, because then no step needs an inverse. -/

namespace Sys2Proof.Machine

open WeierstrassCurve

/-- Scaled coordinates: with `z` not 0 mod p they stand for the point `(x/z^2, y/z^3)`. -/
structure Scaled where
  x : Nat
  y : Nat
  z : Nat

/-- The tangent rule of R111 in scaled coordinates. -/
def Scaled.double (j : Scaled) : Scaled where
  x := residue ((9 * j.x ^ 4 : Nat) - (8 * j.x * j.y ^ 2 : Nat)) fieldPrime
  y := residue ((36 * j.x ^ 3 * j.y ^ 2 : Nat) - (27 * j.x ^ 6 + 8 * j.y ^ 4 : Nat)) fieldPrime
  z := 2 * j.y * j.z % fieldPrime

/-- The chord rule of R112 for the sum with `(x, y)` in scaled coordinates. -/
def Scaled.add (j : Scaled) (x y : Nat) : Scaled :=
  let h := residue ((x * j.z ^ 2 : Nat) - (j.x : Int)) fieldPrime
  let r := residue ((y * j.z ^ 3 : Nat) - (j.y : Int)) fieldPrime
  let x3 := residue ((r ^ 2 : Nat) - (h ^ 3 + 2 * j.x * h ^ 2 : Nat)) fieldPrime
  { x := x3
    y := residue ((r * (j.x * h ^ 2) : Nat) - (r * x3 + j.y * h ^ 3 : Nat)) fieldPrime
    z := j.z * h % fieldPrime }

/-- The scan of R113 over bits `i - 1` down to 0 of k in scaled coordinates. -/
def scaledLoop (k x y : Nat) : Nat → Scaled → Scaled
  | 0, j => j
  | i + 1, j => scaledLoop k x y i (if k.testBit i then j.double.add x y else j.double)

/-- The coordinates stand for P, unless `z` is 0 mod p. A scan that ends in another `z` met no special case on its way. -/
def Scaled.Represents (j : Scaled) (P : curve.Point) : Prop :=
  (j.z : ZMod fieldPrime) ≠ 0 → ∃ (a b : ZMod fieldPrime) (h : curve.Nonsingular a b), P = .some a b h ∧
    (j.x : ZMod fieldPrime) = a * j.z ^ 2 ∧ (j.y : ZMod fieldPrime) = b * j.z ^ 3

/-- G's multiple by `n - 1`, in scaled coordinates. -/
def lastMultiple : Scaled := scaledLoop (groupOrder - 1) baseX baseY 255 ⟨baseX, baseY, 1⟩

/-- `n - 1` times G has G's x and the opposite of its y. -/
theorem lastMultiple_values : lastMultiple.z % fieldPrime ≠ 0 ∧
    lastMultiple.x % fieldPrime = baseX * lastMultiple.z ^ 2 % fieldPrime ∧
    (lastMultiple.y + baseY * lastMultiple.z ^ 3) % fieldPrime = 0 := by decide +kernel

section
variable [Fact fieldPrime.Prime]

theorem Scaled.Represents.double {j : Scaled} {P : curve.Point} (h : j.Represents P) : j.double.Represents (P + P) := by
  intro hz
  have hz' : (j.double.z : ZMod fieldPrime) = 2 * j.y * j.z := by push_cast [Scaled.double, ZMod.natCast_mod]; rfl
  rw [hz'] at hz ⊢
  have hz0 : (j.z : ZMod fieldPrime) ≠ 0 := right_ne_zero_of_mul hz
  obtain ⟨a, b, hns, rfl, hx, hy⟩ := h hz0
  have hb : b ≠ 0 := by
    rintro rfl
    simp [hy] at hz
  obtain ⟨a3, b3, h3, hsum, ha3, hb3⟩ := curve_double hns hb
  have h2 := two_ne_zero_mod_fieldPrime
  refine ⟨a3, b3, h3, hsum, ?_, ?_⟩
  · push_cast [Scaled.double, residue_fieldPrime_cast, hx, hy, ha3]
    field_simp
    ring
  · push_cast [Scaled.double, residue_fieldPrime_cast, hx, hy, hb3, ha3]
    field_simp
    ring

theorem Scaled.Represents.add {j : Scaled} {P : curve.Point} (h : j.Represents P) {x y : Nat}
    (hns : curve.Nonsingular (x : ZMod fieldPrime) (y : ZMod fieldPrime)) :
    (j.add x y).Represents (P + .some _ _ hns) := by
  intro hz
  have hz' : ((j.add x y).z : ZMod fieldPrime) = j.z * (x * j.z ^ 2 - j.x) := by
    push_cast [Scaled.add, residue_fieldPrime_cast, ZMod.natCast_mod]
    rfl
  rw [hz'] at hz ⊢
  have hz0 : (j.z : ZMod fieldPrime) ≠ 0 := left_ne_zero_of_mul hz
  obtain ⟨a, b, hab, rfl, hx, hy⟩ := h hz0
  rw [hx] at hz ⊢
  have hne : (x : ZMod fieldPrime) - a ≠ 0 := by
    intro h0
    rw [sub_eq_zero.mp h0, sub_self, mul_zero] at hz
    exact hz rfl
  obtain ⟨a3, b3, h3, hsum, ha3, hb3⟩ := curve_add hab hns (sub_ne_zero.mp hne).symm
  refine ⟨a3, b3, h3, hsum, ?_, ?_⟩
  · push_cast [Scaled.add, residue_fieldPrime_cast, hx, hy, ha3]
    field_simp
    ring
  · push_cast [Scaled.add, residue_fieldPrime_cast, hx, hy, hb3, ha3]
    field_simp
    ring

theorem scaledLoop_represents {x y : Nat} (hns : curve.Nonsingular (x : ZMod fieldPrime) (y : ZMod fieldPrime)) (k : Nat) :
    ∀ (i : Nat) (j : Scaled), j.Represents ((k / 2 ^ i) • .some _ _ hns) →
      (scaledLoop k x y i j).Represents (k • .some _ _ hns)
  | 0, j, h => by simpa [scaledLoop] using h
  | i + 1, j, h => by
    refine scaledLoop_represents hns k i _ ?_
    rw [div_two_pow_smul]
    split_ifs with hbit
    · exact h.double.add hns
    · rw [add_zero]
      exact h.double

/-! The order of the base point. -/

/-- The base point lies on the curve (R19). -/
theorem basePoint_nonsingular : curve.Nonsingular (baseX : ZMod fieldPrime) (baseY : ZMod fieldPrime) :=
  (curve_nonsingular_iff _ _).mpr ((onCurve_fin_iff baseX baseY).mp (by decide +kernel))

/-- G as a point of the group (R19). -/
def baseG : curve.Point := .some _ _ basePoint_nonsingular

theorem basePoint_represents : basePoint.Represents baseG := ⟨basePoint_nonsingular, rfl⟩

/-- `n` times G is the zero of the group (R20). -/
theorem groupOrder_smul_baseG : groupOrder • baseG = 0 := by
  have hstart : (⟨baseX, baseY, 1⟩ : Scaled).Represents (((groupOrder - 1) / 2 ^ 255) • baseG) := by
    rw [show (groupOrder - 1) / 2 ^ 255 = 1 by norm_num [groupOrder], one_nsmul]
    exact fun _ => ⟨_, _, basePoint_nonsingular, rfl, by simp, by simp⟩
  have hlast : lastMultiple.Represents ((groupOrder - 1) • baseG) :=
    scaledLoop_represents basePoint_nonsingular _ 255 _ hstart
  obtain ⟨hz, hx, hy⟩ := lastMultiple_values
  rw [Ne, mod_fieldPrime_eq_zero_iff] at hz
  rw [mod_fieldPrime_eq_iff] at hx
  rw [mod_fieldPrime_eq_zero_iff] at hy
  obtain ⟨a, b, hab, hP, hxa, hyb⟩ := hlast hz
  have ha : a = baseX := by
    rw [hxa] at hx
    push_cast at hx
    exact mul_right_cancel₀ (pow_ne_zero 2 hz) hx
  have hb : b = -baseY := by
    push_cast at hy
    rw [hyb, ← add_mul] at hy
    exact eq_neg_of_add_eq_zero_left ((mul_eq_zero.mp hy).resolve_right (pow_ne_zero 3 hz))
  have hsum : (groupOrder - 1) • baseG + baseG = 0 := by
    rw [hP]
    exact Affine.Point.add_of_Y_eq ha (by rw [curve_negY, hb])
  rw [← hsum, ← succ_nsmul]
  rfl

/-- No multiple of G by a number in `[1, n)` is the zero of the group (R20). -/
theorem smul_baseG_ne_zero {k : Nat} (hpos : 0 < k) (hlt : k < groupOrder) : k • baseG ≠ 0 := by
  have : Fact groupOrder.Prime := ⟨groupOrder_prime⟩
  have horder : addOrderOf baseG = groupOrder :=
    addOrderOf_eq_prime groupOrder_smul_baseG (Affine.Point.some_ne_zero _)
  intro h
  have hdvd : groupOrder ∣ k := horder ▸ addOrderOf_dvd_of_nsmul_eq_zero h
  exact absurd (Nat.le_of_dvd hpos hdvd) (by omega)

end

/-- Settles O33: k times G is not the zero of the group, whose order n is prime. -/
theorem acceptedNonceGivesAFinitePoint : Obligations.AcceptedNonceGivesAFinitePoint := by
  intro k hpos hlt
  have : Fact fieldPrime.Prime := ⟨fieldPrime_prime⟩
  constructor
  · obtain ⟨q, hq, hrep⟩ := basePoint_represents.pScalar (hlt.trans groupOrder_lt)
    have hred : q.Reduced := pScalar_reduced (p := basePoint) (by norm_num [basePoint, Point.Reduced, baseX, baseY, fieldPrime]) hq
    cases q with
    | inf => exact absurd hrep (smul_baseG_ne_zero hpos hlt)
    | fin x y =>
      obtain ⟨hx, -⟩ := hred
      exact ⟨x, y, hq, hrep.onCurve, hx⟩
  · have hcop : Nat.gcd (k % groupOrder) groupOrder = 1 := by
      rw [Nat.mod_eq_of_lt hlt]
      exact (Nat.coprime_of_lt_prime (by omega) hlt groupOrder_prime).symm
    obtain ⟨hinv, -⟩ := inv_spec groupOrder_prime.one_lt groupOrder_lt hcop
    exact hinv

end Sys2Proof.Machine
end

section
/-! PROOFS. Operands and their checks, the reset block, and the control registers on the bus: what the block answers to a
read and stores at a write (R23 to R31, R37, R39, R88, R143, R150, R167, R168). -/

namespace Sys2Proof.Machine

open Sys2Proof.Claim

/-! Operand checks. -/

/-- A command ends with PRECONDITION at its W operand, or after it (R88). -/
theorem withW_precondition {s : State} {i : WIdx} {f : Word → Out}
    (h : s.isValid i = false ∨ f (s.wReg i) = .next (s.raise .precondition)) : withW s i f = .next (s.raise .precondition) := by
  rcases withW_cases s i f with ⟨hv, e⟩ | ⟨-, e⟩
  · rw [e]
    exact h.resolve_left (by simp [hv])
  · exact e

/-- A command ends with PRECONDITION at its point operand, or after it (R24, R88). -/
theorem withPt_precondition {s : State} {j : PIdx} {f : Point → Out}
    (h : s.ptReadable j = false ∨ f (s.point j) = .next (s.raise .precondition)) :
    withPt s j f = .next (s.raise .precondition) := by
  rcases withPt_cases s j f with ⟨hv, e⟩ | ⟨-, e⟩
  · rw [e]
    exact h.resolve_left (by simp [hv])
  · exact e

theorem fieldCommand_precondition {s : State} {ra rb : WIdx} (h : s.isValid ra = false ∨ s.isValid rb = false)
    (m : Modulus) (rd : WIdx) (f : Int → Int → Int) : fieldCommand m rd ra rb f s = .next (s.raise .precondition) :=
  withW_precondition (h.imp_right fun hb => withW_of_invalid hb _)

/-- Settles O16, operand by operand. -/
theorem unreadableOperandsRaisePrecondition : Obligations.UnreadableOperandsRaisePrecondition := by
  intro s
  refine ⟨fun m rd ra rb h => ?_, fun m rd ra h => ?_, fun rd ra h => ?_, fun rd ra rb h => ?_, fun rd ra rb h => ?_,
    fun rd ra h => ?_, fun rd ra h => ?_, fun wr ws h => ?_⟩
  · exact ⟨fieldCommand_precondition h m rd _, fieldCommand_precondition h m rd _, fieldCommand_precondition h m rd _⟩
  · rw [exec, execFinv]
    exact withW_of_invalid h _
  · rw [exec, execPdbl]
    exact withPt_of_unreadable h _
  · rw [exec, execPadd]
    exact withPt_precondition (h.imp_right fun hb => withPt_of_unreadable hb _)
  · rw [exec, execPmul]
    exact withW_precondition (h.imp_right fun hb => withPt_of_unreadable hb _)
  · rw [exec, execPmulG]
    exact withW_of_invalid h _
  · rw [exec, execPchk]
    exact withPt_of_unreadable h _
  · rw [exec, execDer]
    exact withW_precondition (h.imp_right fun hs => withW_of_invalid hs _)

/-- Settles O17: the infinity bit decides. -/
theorem pointRegistersViewPairs : Obligations.PointRegistersViewPairs := by
  intro s j
  constructor
  · intro (h : s.isInf j = true)
    simp [State.point, State.ptReadable, h]
  · intro (h : s.isInf j = false)
    constructor
    · rw [State.point, h]
      rfl
    · simp only [State.ptReadable, h, Bool.false_or, Bool.and_eq_true]
      rfl

/-! The reset block. -/

/-- Settles O57: the reset state's fields. -/
theorem resetValues : Obligations.ResetValues := by
  refine ⟨fun i => ?_, rfl, rfl, rfl, by decide, rfl, rfl, rfl, fun b => ?_, rfl, rfl, rfl, rfl, rfl⟩
  · simp [State.reset]
  · simp [State.reset]

/-- Every location of the block in reset reads 0 (R39, R168). -/
theorem readLoc_atReset (s : State) (l : Loc) : (atReset s).readLoc l = 0#32 := by
  cases l with
  | ctrl =>
    change State.reset.ctrlWord = 0#32
    decide
  | status =>
    change State.reset.statusWord = 0#32
    decide
  | cmd | msgLen | wValid | pinf | derLen | signDraws | reserved => rfl
  | wWord i j => simp [State.readLoc, laneOf, State.wReg, atReset, State.reset]
  | derWord l =>
    have hbuf : (atReset s).derBuf = Vector.replicate 72 0#8 := rfl
    have hbyte (b : Nat) : (atReset s).derByte b = 0#8 := by
      rw [State.derByte, hbuf, Vector.toList_replicate, List.getD_eq_getElem?_getD, List.getElem?_replicate]
      split_ifs <;> rfl
    simp [State.readLoc, hbyte]

/-- No W register of the block in reset is written (R23, R39). -/
theorem isValid_atReset (s : State) (i : WIdx) : (atReset s).isValid i = false := by
  simp [State.isValid, atReset, State.reset]

/-- No point register of the block in reset is readable (R24, R39). -/
theorem ptReadable_atReset (s : State) (j : PIdx) : (atReset s).ptReadable j = false := by
  have hinf : (atReset s).isInf j = false := by simp [State.isInf, atReset, State.reset]
  simp [State.ptReadable, hinf, isValid_atReset]

/-- SIGN's check step with MSG_LEN written and no key (R125). -/
theorem signCheck_keyFormat {s : State} {wd : WIdx} (hmsg : s.msgLen ≠ 0#32) (hkey : s.isValid wd = false) (we : WIdx) :
    signCheck we wd s = s.raiseSign .keyFormat 0 := by
  rw [signCheck, if_neg hmsg, if_pos hkey]

/-- Settles O58: the reset block's locations read 0, and its operands are unreadable. -/
theorem afterResetNothingIsReadable : Obligations.AfterResetNothingIsReadable := by
  intro s hr
  refine ⟨fun off h4 hlt => ?_, fun i hnop hsign => ?_, fun wr ws we wd n hn => ?_⟩
  · have hread := hostAccess_read (s := atReset s) hr h4 hlt
    rwa [readLoc_atReset] at hread
  · obtain ⟨-, hfinv, hpdbl, hpadd, hpmul, hpmulG, hpchk, hder⟩ := unreadableOperandsRaisePrecondition (atReset s)
    have hw := isValid_atReset s
    have hp := ptReadable_atReset s
    cases i with
    | nop => exact absurd rfl hnop
    | fadd m rd ra rb => exact fieldCommand_precondition (.inl (hw ra)) m rd _
    | fsub m rd ra rb => exact fieldCommand_precondition (.inl (hw ra)) m rd _
    | fmul m rd ra rb => exact fieldCommand_precondition (.inl (hw ra)) m rd _
    | finv m rd ra => exact hfinv m rd ra (hw ra)
    | pdbl rd ra => exact hpdbl rd ra (hp ra)
    | padd rd ra rb => exact hpadd rd ra rb (.inl (hp ra))
    | pmul rd ra rb => exact hpmul rd ra rb (.inl (hw ra))
    | pmulG rd ra => exact hpmulG rd ra (hw ra)
    | pchk rd ra => exact hpchk rd ra (hp ra)
    | sign wr ws we wd => cases hsign
    | der wr ws => exact hder wr ws (.inl (hw wr))
  · exact congrArg Host.Outcome.next
      (signCheck_keyFormat (s := { atReset s with msgLen := n }) hn (isValid_atReset s wd) we)

/-! The control registers on the bus. -/

/-- Settles O43: the acknowledgement is the write of bit 1 to STATUS. -/
theorem acknowledgeClearsDone : Obligations.AcknowledgeClearsDone := by
  intro s
  refine ⟨rfl, fun hr => ?_⟩
  have hack : s.hostAccess (.write (s.cfg.base + 0x004) 4 0x00000002#32) = { s with done := false, resp := .done } := by
    rw [hostAccess_write hr (by norm_num) (by norm_num), show locAt 0x004 = .status from rfl, State.writeLoc, writeStatus_eq]
    simp
  rw [hack]
  exact ⟨rfl, Bool.and_false _⟩

/-- The number a concatenation stands for. -/
theorem toNat_append_eq {m n : Nat} (x : BitVec m) (y : BitVec n) : (x ++ y).toNat = 2 ^ n * x.toNat + y.toNat := by
  rw [BitVec.toNat_append, ← Nat.shiftLeft_add_eq_or_of_lt y.isLt, Nat.shiftLeft_eq, Nat.mul_comm]

/-- ERR is 1 exactly when ERRCODE is not 0 (R28). -/
theorem err_toNat (s : State) : s.err.toNat = if s.errCode = .none then 0 else 1 := by
  rw [State.err]
  cases s.errCode <;> rfl

/-- BUSY is 1 exactly when the engine is not idle (R28, R35). -/
theorem busy_toNat (s : State) : s.busy.toNat = if s.eng = .idle then 0 else 1 := by
  rw [State.busy]
  cases s.eng <;> rfl

/-- Settles O50: STATUS is the concatenation of its fields. -/
theorem statusReadsItsFields : Obligations.StatusReadsItsFields := by
  refine ⟨⟨rfl, rfl, rfl, rfl, rfl, rfl, rfl⟩, fun s => ⟨?_, fun hr => hostAccess_read hr (by norm_num) (by norm_num)⟩⟩
  rw [← err_toNat, ← busy_toNat]
  simp only [State.statusWord, toNat_append_eq, BitVec.toNat_ofBool, BitVec.toNat_ofNat]
  omega

/-- A write that R57 drops while busy is performed in an idle block. -/
theorem hostAccess_write_idle {s t : State} {off : Nat} {v : Bus} (hr : s.rst = false) (he : s.eng = .idle) (h4 : off % 4 = 0)
    (hlt : off < 4096) (hl : s.writeLoc v (locAt off) = s.unlessBusy t) :
    s.hostAccess (.write (s.cfg.base + off) 4 v) = { t with resp := .done } := by
  rw [hostAccess_write hr h4 hlt, hl, unlessBusy_of_idle he]

/-- Settles O51: each location's read, and its write while idle. -/
theorem registerReadsAndIdleWrites : Obligations.RegisterReadsAndIdleWrites := by
  intro s v hr
  have hread (off : Nat) (h4 : off % 4 = 0) (hlt : off < 4096) := hostAccess_read (s := s) hr h4 hlt
  have hctrl : s.ctrlWord = if s.ie then 1#32 else 0#32 := by
    rw [State.ctrlWord]
    cases s.ie <;> rfl
  refine ⟨⟨?_, hread 0x008 rfl (by norm_num), hread 0x00C rfl (by norm_num), hread 0x010 rfl (by norm_num),
    hread 0x014 rfl (by norm_num), hread 0x018 rfl (by norm_num), hread 0x01C rfl (by norm_num)⟩, fun he => ?_⟩
  · rw [← hctrl]
    exact hread 0x000 rfl (by norm_num)
  have hzeroise := hostAccess_write_idle (off := 0x010) (v := v) hr he rfl (by norm_num)
    (t := { s with w := (s.zeroise v).w, valid := (s.zeroise v).valid }) (congrArg s.unlessBusy (by rw [State.zeroise]))
  refine ⟨?_, hostAccess_write_idle (off := 0x00C) hr he rfl (by norm_num) rfl, s.zeroise v, hzeroise, fun i => ⟨?_, ?_⟩⟩
  · rw [← BitVec.setWidth_eq_extractLsb' (by norm_num)]
    exact hostAccess_write_idle (off := 0x014) hr he rfl (by norm_num) rfl
  · simp [State.wReg]
  · simp

/-- Settles O55: a CTRL write with SRST set is a reset of the block. -/
theorem softResetRestoresEverything : Obligations.SoftResetRestoresEverything := by
  intro s v hr hv
  have hreset : s.hostAccess (.write s.cfg.base 4 v) = { atReset s with resp := .done } := by
    have h := hostAccess_write (s := s) (off := 0) hr rfl (by norm_num) v
    rw [Nat.add_zero, show locAt 0 = .ctrl from rfl, State.writeLoc, State.writeCtrl, if_pos hv] at h
    exact h
  rw [hreset]
  exact ⟨rfl, rfl, readLoc_atReset { s with resp := .done } .status⟩

end Sys2Proof.Machine
end

section
/-! PROOFS. The host's accesses to the window and the entropy agent's deliveries: which accesses reach a location, what a
write to it stores, what stays readable while a command is in flight, and which draw a delivery hands over (R48 to R52,
R56 to R58, R66, R67). -/

namespace Sys2Proof.Machine

open Sys2Proof.Claim

/-! Locations by their offsets (R46). -/

theorem locAt_of_wRange {off : Nat} (h : 0x100 ≤ off ∧ off < 0x300) : ∃ i j, locAt off = .wWord i j := by
  simp (disch := omega) only [locAt, if_neg, if_pos h]
  exact ⟨_, _, rfl⟩

theorem locAt_of_derRange {off : Nat} (h : 0x300 ≤ off ∧ off < 0x348) : ∃ l, locAt off = .derWord l := by
  simp (disch := omega) only [locAt, if_neg, if_pos h]
  exact ⟨_, rfl⟩

theorem locAt_of_reserved {off : Nat} (h : (0x020 ≤ off ∧ off < 0x100) ∨ (0x348 ≤ off ∧ off < 0x1000)) :
    locAt off = .reserved := by
  simp (disch := omega) only [locAt, if_neg]

/-- CTRL has offset 0 alone. -/
theorem locAt_ne_ctrl {off : Nat} (h : off ≠ 0) : locAt off ≠ .ctrl := by
  rw [locAt, if_neg h]
  split_ifs <;> exact Loc.noConfusion

/-! Which accesses do something. -/

/-- An access answers and does nothing else, or it is a lawful write in the window with `RST` released (R48, R56, R166). -/
theorem hostAccess_still_or_write (s : State) (a : Access) :
    (∃ r c, (s.rst = false → c = s.freeCount) ∧ s.hostAccess a = { s with resp := r, freeCount := c }) ∨
    (s.rst = false ∧ ∃ off v, a = .write (s.cfg.base + off) 4 v ∧ off % 4 = 0 ∧ off < 4096) := by
  unfold State.hostAccess
  split_ifs with hroute hrst hlaw
  · exact .inl ⟨_, _, by simp [hrst], rfl⟩
  · cases a with
    | read a z => exact .inl ⟨_, s.freeCount, fun _ => rfl, rfl⟩
    | write a z v =>
      obtain ⟨hlo, hhi⟩ : s.cfg.base ≤ a ∧ a < s.cfg.base + 4096 := of_decide_eq_true hroute
      obtain ⟨rfl, h4⟩ : z = 4 ∧ (a - s.cfg.base) % 4 = 0 := of_decide_eq_true hlaw
      exact .inr ⟨by simpa using hrst, a - s.cfg.base, v, by rw [Nat.add_sub_cancel' hlo], h4, by omega⟩
  · exact .inl ⟨_, s.freeCount, fun _ => rfl, rfl⟩
  · exact .inl ⟨_, s.freeCount, fun _ => rfl, rfl⟩

/-- A read answers and does nothing else (R56). -/
theorem hostAccess_read_still (s : State) (a size : Nat) : ∃ r c, (s.rst = false → c = s.freeCount) ∧
    s.hostAccess (.read a size) = { s with resp := r, freeCount := c } := by
  rcases hostAccess_still_or_write s (.read a size) with h | ⟨-, off, v, h, -⟩
  · exact h
  · cases h

/-- What the bus answered last has no part in a read. -/
theorem hostAccess_read_with_resp (s : State) (r : Response) (a size : Nat) :
    { s with resp := r }.hostAccess (.read a size) = s.hostAccess (.read a size) := rfl

/-- Settles O45: with `RST` released a read changes the response alone, which the next read does not see. -/
theorem readsHaveNoSideEffect : Obligations.ReadsHaveNoSideEffect := by
  intro s a size
  obtain ⟨r, c, hc, e⟩ := hostAccess_read_still s a size
  refine ⟨⟨r, c, e⟩, fun hr => ?_⟩
  obtain rfl := hc hr
  constructor
  · rw [e]
  · calc (s.hostAccess (.read a size)).hostAccess (.read a size)
        = { s with resp := r }.hostAccess (.read a size) := by rw [e]
      _ = s.hostAccess (.read a size) := hostAccess_read_with_resp s r a size

/-- Settles O46: such an access is routed to the block and is not lawful. -/
theorem otherAccessesGetABusError : Obligations.OtherAccessesGetABusError := by
  intro s a hr hlo hhi hbad
  have hroute : s.routed a = true := decide_eq_true ⟨hlo, hhi⟩
  have hlaw : s.lawful a = false := by
    refine decide_eq_false ?_
    rintro ⟨hsize, hoff⟩
    exact hbad.elim (· hsize) (· hoff)
  simp [State.hostAccess, hroute, hr, hlaw]

/-! Writes that do nothing, and writes while busy. -/

/-- A lawful write to a location that keeps nothing of it only answers (R49, R57). -/
theorem hostAccess_write_readOnly {s : State} {off : Nat} (hr : s.rst = false) (h4 : off % 4 = 0) (hlt : off < 4096)
    (hl : locAt off = .derLen ∨ locAt off = .signDraws ∨ locAt off = .reserved ∨ ∃ d, locAt off = .derWord d) (v : Bus) :
    s.hostAccess (.write (s.cfg.base + off) 4 v) = { s with resp := .done } := by
  rw [hostAccess_write hr h4 hlt, writeLoc_readOnly s v hl]

/-- Settles O47: the offsets are those of the location `reserved`. -/
theorem reservedOffsetsReadZero : Obligations.ReservedOffsetsReadZero := by
  intro s off v hr h4 hoff
  have hloc := locAt_of_reserved hoff
  have hlt : off < 4096 := by omega
  constructor
  · rw [hostAccess_read hr h4 hlt, hloc, State.readLoc]
  · exact hostAccess_write_readOnly hr h4 hlt (.inr (.inr (.inl hloc))) v

/-- The bytes of the DER buffer are inside it. -/
theorem derByte_eq (s : State) {b : Nat} (h : b < 72) : s.derByte b = s.derBuf[b] := by
  simp [State.derByte, List.getD_eq_getElem?_getD, h]

/-- Settles O49: the offsets are those of the buffer's words. -/
theorem derBufferReadsLittleEndian : Obligations.DerBufferReadsLittleEndian := by
  intro s l v hr
  have h4 : (0x300 + 4 * l.val) % 4 = 0 := by omega
  have hlt : 0x300 + 4 * l.val < 4096 := by omega
  constructor
  · rw [hostAccess_read hr h4 hlt, locAt_derWord, State.readLoc]
    simp (disch := omega) only [derByte_eq]
  · exact hostAccess_write_readOnly hr h4 hlt (.inr (.inr (.inr ⟨l, locAt_derWord l⟩))) v

/-- The locations of R57's list are those whose write waits for an idle block. -/
theorem writeLoc_of_droppedWhileBusy {off : Nat} (h : droppedWhileBusy off) (s : State) (v : Bus) :
    ∃ t, s.writeLoc v (locAt off) = s.unlessBusy t := by
  rcases h with rfl | rfl | rfl | rfl | hw
  · exact ⟨_, rfl⟩
  · exact ⟨_, rfl⟩
  · exact ⟨_, rfl⟩
  · exact ⟨_, rfl⟩
  · obtain ⟨i, j, hloc⟩ := locAt_of_wRange hw
    rw [hloc]
    exact ⟨_, rfl⟩

/-- The offsets that ignore writes are those of the read-only and the reserved locations (R46). -/
theorem locAt_of_ignoresWrites {off : Nat} (h : ignoresWrites off) :
    off < 4096 ∧
    (locAt off = .derLen ∨ locAt off = .signDraws ∨ locAt off = .reserved ∨ ∃ d, locAt off = .derWord d) := by
  rcases h with rfl | rfl | hres | hder
  · exact ⟨by norm_num, .inl rfl⟩
  · exact ⟨by norm_num, .inr (.inl rfl)⟩
  · exact ⟨by omega, .inr (.inr (.inl (locAt_of_reserved (.inl hres))))⟩
  · refine ⟨by omega, .inr (.inr ?_)⟩
    by_cases hbuf : off < 0x348
    · exact .inr (locAt_of_derRange ⟨hder.1, hbuf⟩)
    · exact .inl (locAt_of_reserved (.inr ⟨by omega, by omega⟩))

/-- Settles O44, location by location. -/
theorem busyWritesAreDropped : Obligations.BusyWritesAreDropped := by
  intro s off v hr h4
  refine ⟨fun hbusy hdrop => ?_, ?_, ?_, ?_, fun hign => ?_⟩
  · obtain ⟨t, ht⟩ := writeLoc_of_droppedWhileBusy hdrop s v
    have hlt : off < 4096 := by unfold droppedWhileBusy at hdrop; omega
    rw [hostAccess_write hr h4 hlt, ht, unlessBusy_of_busy hbusy]
  · rintro rfl hsrst
    rw [hostAccess_write hr h4 (by norm_num), show locAt 0x000 = .ctrl from rfl, State.writeLoc, State.writeCtrl, hsrst]
    rfl
  · rintro rfl hsrst
    obtain ⟨hreset, -⟩ := softResetRestoresEverything s v hr hsrst
    exact ⟨State.reset.snap, hreset⟩
  · rintro rfl
    rw [hostAccess_write hr h4 (by norm_num), show locAt 0x004 = .status from rfl, State.writeLoc, writeStatus_eq]
  · obtain ⟨hlt, hloc⟩ := locAt_of_ignoresWrites hign
    exact hostAccess_write_readOnly hr h4 hlt hloc v

/-! The words of a W register (R50). -/

/-- The bits of a value with word j replaced. -/
theorem getLsbD_setLane (v : Word) (j : Lane) (x : Bus) {k : Nat} (hk : k < 256) : (setLane v j x).getLsbD k =
    if 32 * j.val ≤ k ∧ k < 32 * j.val + 32 then x.getLsbD (k - 32 * j.val) else v.getLsbD k := by
  have hmask (n : Nat) : (0xFFFFFFFF#256).getLsbD n = decide (n < 32) := by
    rw [BitVec.getLsbD_ofNat, show 0xFFFFFFFF = 2 ^ 32 - 1 from rfl, Nat.testBit_two_pow_sub_one, ← Bool.decide_and]
    exact decide_eq_decide.mpr (by omega)
  simp only [setLane, BitVec.getLsbD_or, BitVec.getLsbD_and, BitVec.getLsbD_not, BitVec.getLsbD_shiftLeft,
    BitVec.getLsbD_setWidth, hmask, hk]
  by_cases hlo : k < 32 * j.val
  · simp [hlo, show ¬ 32 * j.val ≤ k by omega]
  · by_cases hhi : k < 32 * j.val + 32
    · simp [hlo, hhi, show 32 * j.val ≤ k by omega, show k - 32 * j.val < 32 by omega, show k - 32 * j.val < 256 by omega]
    · simp [hlo, hhi, show ¬ k - 32 * j.val < 32 by omega, BitVec.getLsbD_of_ge x (k - 32 * j.val) (by omega)]

/-- The replaced word reads back. -/
theorem laneOf_setLane_same (v : Word) (j : Lane) (x : Bus) : laneOf (setLane v j x) j = x := by
  apply BitVec.eq_of_getLsbD_eq
  intro k hk
  rw [laneOf, BitVec.getLsbD_extractLsb', getLsbD_setLane v j x (by omega), if_pos (by omega), Nat.add_sub_cancel_left]
  simp [hk]

/-- The other words keep their bits. -/
theorem laneOf_setLane_other (v : Word) {j j' : Lane} (h : j' ≠ j) (x : Bus) :
    laneOf (setLane v j x) j' = laneOf v j' := by
  have hne : j'.val ≠ j.val := Fin.val_ne_of_ne h
  apply BitVec.eq_of_getLsbD_eq
  intro k hk
  rw [laneOf, laneOf, BitVec.getLsbD_extractLsb', BitVec.getLsbD_extractLsb', getLsbD_setLane v j x (by omega),
    if_neg (by omega)]

/-- A 256-bit value is its eight words. -/
theorem eq_of_laneOf_eq {v u : Word} (h : ∀ j : Lane, laneOf v j = laneOf u j) : v = u := by
  apply BitVec.eq_of_getLsbD_eq
  intro k hk
  have hbit := congrArg (·.getLsbD (k % 32)) (h ⟨k / 32, by omega⟩)
  simpa [laneOf, BitVec.getLsbD_extractLsb', Nat.mod_lt, Nat.div_add_mod] using hbit

theorem laneOffset_lawful (i : WIdx) (j : Lane) : laneOffset i j % 4 = 0 ∧ laneOffset i j < 4096 := by
  unfold laneOffset
  omega

/-- A write of word j of Wi while idle is a scalar write of the value with that word replaced (R50). -/
theorem hostAccess_write_lane {s : State} (hr : s.rst = false) (he : s.eng = .idle) (i : WIdx) (j : Lane) (x : Bus) :
    s.hostAccess (.write (s.cfg.base + laneOffset i j) 4 x) =
      { s.putW i (setLane (s.wReg i) j x) with resp := .done } := by
  obtain ⟨h4, hlt⟩ := laneOffset_lawful i j
  exact hostAccess_write_idle hr he h4 hlt (by rw [laneOffset, locAt_lane, State.writeLoc, State.writeLane])

/-- The claims' scalar write is the model's (R25). -/
theorem withScalar_toNat (s : State) (i : WIdx) (x : Word) : withScalar s i x.toNat = s.putW i x := by
  rw [withScalar, BitVec.ofNat_toNat, BitVec.setWidth_eq]
  rfl

/-- `wrW`'s write of word j of the value v (R84). -/
def State.loadLane (i : WIdx) (v : Word) (s : State) (j : Lane) : State :=
  s.hostAccess (.write (s.cfg.base + laneOffset i j) 4 (laneOf v j))

/-- The words of v that were written stand in Wi, in whatever order; the others are as they were. -/
theorem laneOf_foldl_loadLane {s : State} (hr : s.rst = false) (he : s.eng = .idle) (i : WIdx) (v : Word) (l : List Lane)
    (j : Lane) : laneOf ((l.foldl (State.loadLane i v) s).wReg i) j = if j ∈ l then laneOf v j else laneOf (s.wReg i) j := by
  induction l generalizing s with
  | nil => simp
  | cons k l ih =>
    have hload : s.loadLane i v k = { s.putW i (setLane (s.wReg i) k (laneOf v k)) with resp := .done } :=
      hostAccess_write_lane hr he i k _
    have hreg : (s.loadLane i v k).wReg i = setLane (s.wReg i) k (laneOf v k) := by
      rw [hload]
      simp [State.wReg]
    rw [List.foldl_cons, ih (by rw [hload]; exact hr) (by rw [hload]; exact he), hreg]
    by_cases hk : j = k
    · subst hk
      simp [laneOf_setLane_same]
    · simp [hk, laneOf_setLane_other _ hk]

/-- Settles O48: a word write replaces one word, and eight of them replace all. -/
theorem wordWritesLoadARegister : Obligations.WordWritesLoadARegister := by
  intro s i hr
  refine ⟨fun j => ?_, fun he j v => ?_, fun he v l hl => ?_⟩
  · obtain ⟨h4, hlt⟩ := laneOffset_lawful i j
    have hread := hostAccess_read hr h4 hlt
    rw [laneOffset, locAt_lane] at hread
    exact hread
  · refine ⟨setLane (s.wReg i) j v, ?_, laneOf_setLane_same _ j v, fun j' hj => laneOf_setLane_other _ hj v⟩
    rw [withScalar_toNat]
    exact hostAccess_write_lane hr he i j v
  · refine eq_of_laneOf_eq fun j => ?_
    have hj : j ∈ l := hl.mem_iff.mpr (List.mem_finRange j)
    exact (laneOf_foldl_loadLane hr he i v l j).trans (if_pos hj)

/-! A command in flight. -/

/-- An engine step of a command ends it, or is a SIGN's request for a draw (R66, R67, R90). -/
theorem exec_ends_or_requests {i : Instr} {s t : State} (h : exec i s = .next t) :
    (t.eng = .idle ∧ t.entReq = false) ∨
    (isSign i = true ∧
      ∃ x k d, t = { s with snap := x, attempts := k, draw := d, entReq := true, eng := .waitEntropy }) := by
  rcases exec_cases h with ⟨wr, ws, we, wd, rfl, hsign⟩ | ⟨-, hend⟩
  · rcases execSign_next hsign with ⟨-, rfl⟩ | ⟨k, -, rfl | ⟨r, sv, -, rfl⟩ | ⟨-, rfl⟩⟩
    · rcases signCheck_cases we wd s with ⟨code, -, e⟩ | ⟨-, -, -, e⟩ <;> rw [e]
      · exact .inl ⟨rfl, rfl⟩
      · exact .inr ⟨rfl, _, _, _, rfl⟩
    · rcases signReject_cases s.takeDraw with ⟨-, e⟩ | ⟨-, e⟩ <;> rw [e]
      · exact .inl ⟨rfl, rfl⟩
      · exact .inr ⟨rfl, _, _, _, rfl⟩
    · exact .inl ⟨rfl, rfl⟩
    · exact .inl ⟨rfl, rfl⟩
  · cases hend <;> exact .inl ⟨rfl, rfl⟩

/-- Settles O35: a step that ends the command withdraws the request, and a SIGN's request raises no error. -/
theorem onlyARunningSignRequestsEntropy : Obligations.OnlyARunningSignRequestsEntropy := by
  intro i s t h
  rcases exec_ends_or_requests h with ⟨-, hq⟩ | ⟨hi, x, k, d, rfl⟩
  · exact ⟨fun hreq => absurd hreq (by simp [hq]), fun _ _ => hq⟩
  · exact ⟨fun _ => ⟨hi, rfl⟩, fun herr hs => absurd hs herr⟩

/-- No location but STATUS shows DONE, OVR, ENG_STATE, the hidden elements or the bus response (R26 to R36). -/
theorem readLoc_frame (s : State) {l : Loc} (hl : l ≠ .status) (done ovr : Bool) (eng : EngState) (attempts : Nat)
    (snap : Snap) (entReq : Bool) (draw : Option Word) (resp : Response) (freeCount : Nat) :
    { s with done := done, ovr := ovr, eng := eng, attempts := attempts, snap := snap, entReq := entReq, draw := draw,
             resp := resp, freeCount := freeCount }.readLoc l = s.readLoc l := by
  cases l with
  | status => exact absurd rfl hl
  | ctrl | cmd | msgLen | wValid | pinf | derLen | signDraws | wWord i j | derWord d | reserved => rfl

/-- A write to a busy block, but to CTRL, changes at most DONE and OVR (R28, R57). -/
theorem writeLoc_of_busy {s : State} (hb : s.busy = true) {l : Loc} (hl : l ≠ .ctrl) (v : Bus) :
    ∃ done ovr, s.writeLoc v l = { s with done := done, ovr := ovr } := by
  cases l with
  | ctrl => exact absurd rfl hl
  | status => exact ⟨_, _, writeStatus_eq s v⟩
  | cmd | msgLen | wValid | pinf | wWord i j => exact ⟨s.done, true, unlessBusy_of_busy hb _⟩
  | derLen | signDraws | derWord d | reserved => exact ⟨s.done, s.ovr, rfl⟩

/-- The engine's turn, where it leaves the command in flight, changes nothing that a location but STATUS shows (R93). -/
theorem readLoc_engineTurn {s t : State} (ht : engineTurn s = .next t) (hb : t.busy = true) {l : Loc} (hl : l ≠ .status) :
    t.readLoc l = s.readLoc l := by
  by_cases hrun : s.rst = false ∧ s.eng = .run
  · obtain ⟨hr, he⟩ := hrun
    rw [engineTurn_run hr he] at ht
    cases hdec : decode s.cur with
    | illegal =>
      rw [runWord_illegal hdec] at ht
      cases ht
      cases hb
    | row i =>
      rw [runWord_row hdec] at ht
      rcases exec_ends_or_requests ht with ⟨hidle, -⟩ | ⟨-, x, k, d, rfl⟩
      · simp [State.busy, hidle] at hb
      · exact readLoc_frame s hl _ _ _ _ _ _ _ _ _
  · rw [not_and_or, Bool.not_eq_false] at hrun
    rw [engineTurn_still hrun] at ht
    cases ht
    rfl

/-- A host access to a busy block, but a write to CTRL, changes nothing that a location but STATUS shows (R57). -/
theorem readLoc_hostAccess {s : State} (hb : s.busy = true) {a : Access}
    (ha : ∀ size v, a ≠ .write s.cfg.base size v) {l : Loc} (hl : l ≠ .status) :
    (s.hostAccess a).readLoc l = s.readLoc l := by
  rcases hostAccess_still_or_write s a with ⟨r, c, -, e⟩ | ⟨hr, off, v, rfl, h4, hlt⟩
  · rw [e]
    exact readLoc_frame s hl _ _ _ _ _ _ _ _ _
  · have hoff : off ≠ 0 := by
      rintro rfl
      exact ha 4 v rfl
    obtain ⟨done, ovr, e⟩ := writeLoc_of_busy hb (locAt_ne_ctrl hoff) v
    rw [hostAccess_write hr h4 hlt, e]
    exact readLoc_frame s hl _ _ _ _ _ _ _ _ _

/-- Settles O52, agent by agent. -/
theorem readsAreStableWhileBusy : Obligations.ReadsAreStableWhileBusy := by
  intro e s t hr hbs hbt ht hctrl l hl
  cases e with
  | engine => exact readLoc_engineTurn ht hbt hl
  | host a =>
    cases ht
    exact readLoc_hostAccess hbs (fun size v ha => hctrl size v (congrArg Event.host ha)) hl
  | entropy b =>
    cases ht
    by_cases he : s.eng = .waitEntropy
    · rw [deliver_waiting hr he]
      exact readLoc_frame s hl _ _ _ _ _ _ _ _ _
    · rw [deliver_still (.inr he)]
  | assertRst =>
    cases ht
    cases hbt
  | releaseRst =>
    cases ht
    cases l <;> rfl

/-! Deliveries (R66, R67). -/

theorem beValue_concat (bs : List Byte) (b : Byte) : beValue (bs ++ [b]) = 256 * beValue bs + b.toNat := by
  simp [beValue]

/-- A string of n bytes is a number below 256^n. -/
theorem beValue_lt (bs : List Byte) : beValue bs < 256 ^ bs.length := by
  induction bs using List.reverseRecOn with
  | nil => simp [beValue]
  | append_singleton bs b ih =>
    have hb := b.isLt
    rw [beValue_concat, List.length_append, List.length_singleton, pow_succ]
    omega

/-- The big-endian integer of n bytes, digit by digit. -/
theorem beValue_ofFn {n : Nat} (f : Fin n → Byte) :
    beValue (List.ofFn f) = ∑ t : Fin n, (f t).toNat * 256 ^ (n - 1 - t.val) := by
  induction n with
  | zero => rfl
  | succ n ih =>
    have hshift (t : Fin n) : (f t.castSucc).toNat * 256 ^ (n - t.val) =
        256 * ((f t.castSucc).toNat * 256 ^ (n - 1 - t.val)) := by
      rw [show n - t.val = n - 1 - t.val + 1 by omega, pow_succ]
      ring
    rw [List.ofFn_succ_last, beValue_concat, ih, Fin.sum_univ_castSucc, Finset.mul_sum]
    simp [hshift]

/-- The draw is the big-endian integer of the 32 bytes, all of it (R66). -/
theorem drawOf_toNat (b : Vector Byte 32) : (drawOf b).toNat = ∑ t : Fin 32, b[t].toNat * 256 ^ (31 - t.val) := by
  have hlist : b.toList = List.ofFn fun t : Fin 32 => b[t] := by
    rw [← Vector.toList_ofFn]
    exact congrArg Vector.toList Vector.ofFn_getElem.symm
  have hlt := beValue_lt b.toList
  rw [Vector.length_toList] at hlt
  rw [drawOf, BitVec.toNat_ofNat, Nat.mod_eq_of_lt (by omega), hlist, beValue_ofFn]

/-- Settles O53: the draw handed over is `drawOf` of the bytes. -/
theorem deliveryHandsOverTheDraw : Obligations.DeliveryHandsOverTheDraw := by
  intro s b hr he
  exact ⟨drawOf b, congrArg Host.Outcome.next (deliver_waiting hr he b), drawOf_toNat b⟩

/-- Settles O54: after a soft reset the engine is idle, so no request waits. -/
theorem unrequestedDeliveryIsDiscarded : Obligations.UnrequestedDeliveryIsDiscarded := by
  intro s b
  refine ⟨fun he => congrArg Host.Outcome.next (deliver_still (.inr he) b), fun v hv => ?_⟩
  have hreset : s.writeLoc v .ctrl = s.resetBlock := by rw [State.writeLoc, State.writeCtrl, if_pos hv]
  have hidle : s.resetBlock.eng ≠ .waitEntropy := by simp [State.reset]
  rw [hreset]
  exact congrArg Host.Outcome.next (deliver_still (.inr hidle) b)

end Sys2Proof.Machine
end

section
/-! PROOFS. The encoding of commands: a word spells a row exactly when its fields fit the row, no two rows share a word, the
decoder and the encoder are inverse, and the illegal words are those of R77 (R71 to R85). -/

namespace Sys2Proof

open Sys2Proof.Machine Sys2Proof.Claim

/-! Rows are disjoint (R76). -/

/-- Two rows whose match bits differ under both masks share no word. -/
theorem not_spells_both_of_conflict {a b : Row} (h : a.bits &&& b.mask ≠ b.bits &&& a.mask) (c : Bus) :
    ¬ (a.spells c = true ∧ b.spells c = true) := by
  simp only [Row.spells, beq_iff_eq]
  rintro ⟨ha, hb⟩
  rw [← ha, ← hb, BitVec.and_assoc, BitVec.and_assoc, BitVec.and_comm a.mask] at h
  exact h rfl

/-- Settles O5: every two rows differ in a bit that both their masks keep. -/
theorem noWordSpellsTwoRows : Obligations.NoWordSpellsTwoRows := by
  have hconflict : rows.Pairwise fun a b => a.bits &&& b.mask ≠ b.bits &&& a.mask := by decide
  exact hconflict.imp fun h c => not_spells_both_of_conflict h c

/-- A word spells at most one row. -/
theorem row_unique {a b : Row} {c : Bus} (ha : a ∈ rows) (hb : b ∈ rows) (hac : a.spells c = true)
    (hbc : b.spells c = true) : a = b := by
  by_contra hne
  have hdisjoint : rows.Pairwise fun a b => ∀ c : Bus, ¬ (a.spells c = true ∧ b.spells c = true) := noWordSpellsTwoRows
  have : Std.Symm fun a b : Row => ∀ c : Bus, ¬ (a.spells c = true ∧ b.spells c = true) :=
    ⟨fun _ _ h c hc => h c hc.symm⟩
  exact hdisjoint.forall ha hb hne c ⟨hac, hbc⟩

/-! The decoder by its rows (R81). -/

theorem read_eq_some_iff {r : Row} {c : Bus} {i : Instr} :
    r.read c = some i ↔ r.spells c = true ∧ r.build (fieldsOf c) = some i := by
  rw [Row.read, Option.ite_none_right_eq_some]

/-- The order of the rows does not matter: a word decodes to what any row reads from it. -/
theorem decode_eq_row_iff {c : Bus} {i : Instr} : decode c = .row i ↔ ∃ r ∈ rows, r.read c = some i := by
  have hfind : decode c = .row i ↔ rows.findSome? (fun r => r.read c) = some i := by
    rw [decode]
    cases rows.findSome? (fun r => r.read c) <;> simp
  rw [hfind]
  refine ⟨List.exists_of_findSome?_eq_some, fun ⟨r, hr, hi⟩ => ?_⟩
  cases hfirst : rows.findSome? (fun r => r.read c) with
  | none => exact absurd (List.findSome?_eq_none_iff.mp hfirst r hr) (by simp [hi])
  | some j =>
    obtain ⟨q, hq, hj⟩ := List.exists_of_findSome?_eq_some hfirst
    rw [row_unique hq hr (read_eq_some_iff.mp hj).1 (read_eq_some_iff.mp hi).1] at hj
    exact hj.symm.trans hi

theorem decode_eq_illegal_iff {c : Bus} : decode c = .illegal ↔ ∀ r ∈ rows, r.read c = none := by
  rw [← List.findSome?_eq_none_iff, decode]
  cases rows.findSome? (fun r => r.read c) <;> simp

/-! Decode of encode (R71, R75). -/

theorem wellFormed_sign {wr ws we wd : WIdx} : (Instr.sign wr ws we wd).wellFormed = true ↔ wr ≠ ws := bne_iff_ne

theorem rowOf_mem (i : Instr) : rowOf i ∈ rows := by cases i <;> simp [rowOf, rows]

/-- A command's word spells its row (R76). -/
theorem spells_encode (i : Instr) : (rowOf i).spells (encode i) = true :=
  match i with
  | .nop => Laws.RowMatch.nop
  | .fadd m rd ra rb => Laws.RowMatch.fadd m rd ra rb
  | .fsub m rd ra rb => Laws.RowMatch.fsub m rd ra rb
  | .fmul m rd ra rb => Laws.RowMatch.fmul m rd ra rb
  | .finv m rd ra => Laws.RowMatch.finv m rd ra
  | .pdbl rd ra => Laws.RowMatch.pdbl rd ra
  | .padd rd ra rb => Laws.RowMatch.padd rd ra rb
  | .pmul rd ra rb => Laws.RowMatch.pmul rd ra rb
  | .pmulG rd ra => Laws.RowMatch.pmulG rd ra
  | .pchk rd ra => Laws.RowMatch.pchk rd ra
  | .sign wr ws we wd => Laws.RowMatch.sign wr ws we wd
  | .der wr ws => Laws.RowMatch.der wr ws

/-- A well-formed command's row builds the command from its fields (R72, R73, R75). -/
theorem build_fieldsFor {i : Instr} (h : i.wellFormed = true) : (rowOf i).build (fieldsFor i) = some i := by
  cases i with
  | nop => rfl
  | fadd | fsub | fmul | finv => simp [rowOf, rowFadd, rowFsub, rowFmul, rowFinv, fieldsFor]
  | pdbl | padd | pmul | pmulG | pchk => simp [rowOf, rowPdbl, rowPadd, rowPmul, rowPmulG, rowPchk, fieldsFor]
  | sign wr ws we wd =>
    simp [rowOf, rowSign, fieldsFor, wellFormed_sign.mp h]
  | der => simp [rowOf, rowDer, fieldsFor]

/-- Settles O2: the command's row reads the command from its word, and no other row reads that word. -/
theorem decodeOfEncodeIsIdentity : Obligations.DecodeOfEncodeIsIdentity := by
  intro i hi
  refine decode_eq_row_iff.mpr ⟨rowOf i, rowOf_mem i, read_eq_some_iff.mpr ⟨spells_encode i, ?_⟩⟩
  rw [encode, fieldsOf_pack]
  exact build_fieldsFor hi

/-- Settles O1: each word is its command's, so it decodes to the command. -/
theorem workedEncodingsAgree : Obligations.WorkedEncodingsAgree := by
  intro iw hiw
  have hword : encode iw.1 = iw.2 ∧ iw.1.wellFormed = true := by
    revert iw
    decide
  rw [← hword.1]
  exact ⟨rfl, decodeOfEncodeIsIdentity iw.1 hword.2⟩

/-! Rows by fields (R75, R77). -/

/-- The fields under the row's mask are the row's match. -/
def Row.Fits (r : Row) (f : Fields) : Prop := f.masked (fieldsOf r.mask) = fieldsOf r.bits

theorem reserved_eq_zero_iff (c : Bus) : c.extractLsb' 26 6 = 0#6 ↔ c &&& 0xFC000000#32 = 0#32 := by
  constructor
  · intro h
    rw [← pack_fieldsOf h, pack_and_reserved]
  · intro h
    have hx : (c &&& 0xFC000000#32).extractLsb' 26 6 = 0#6 := by rw [h]; rfl
    rw [BitVec.extractLsb'_and] at hx
    exact BitVec.and_allOnes.symm.trans hx

/-- A word spells a row exactly when its reserved bits are 0 and its fields fit the row. -/
theorem spells_iff_fits {r : Row} (hr : r ∈ rows) (c : Bus) :
    r.spells c = true ↔ c.extractLsb' 26 6 = 0#6 ∧ r.Fits (fieldsOf c) := by
  have hmask : ∀ r ∈ rows, r.mask = 0xFC000000#32 ||| pack (fieldsOf r.mask) := by decide
  have hbits : ∀ r ∈ rows, r.bits = pack (fieldsOf r.bits) := by decide
  have hiff := spells_pack (hmask r hr) (hbits r hr) (fieldsOf c)
  have hzero (hs : r.spells c = true) : c.extractLsb' 26 6 = 0#6 := by
    have hres : ∀ r ∈ rows, r.mask &&& 0xFC000000#32 = 0xFC000000#32 ∧ r.bits &&& 0xFC000000#32 = 0#32 := by decide
    obtain ⟨hm, hb⟩ := hres r hr
    rw [Row.spells, beq_iff_eq] at hs
    rw [reserved_eq_zero_iff, ← hm, ← BitVec.and_assoc, hs, hb]
  constructor
  · intro hs
    rw [pack_fieldsOf (hzero hs)] at hiff
    exact ⟨hzero hs, hiff.mp hs⟩
  · rintro ⟨h0, hf⟩
    rw [pack_fieldsOf h0] at hiff
    exact hiff.mpr hf

@[simp] theorem and_opcode_mask (f : BitVec 8) : f &&& 255#8 = f := BitVec.and_allOnes

@[simp] theorem and_field_mask (f : BitVec 4) : f &&& 15#4 = f := BitVec.and_allOnes

@[simp] theorem and_bit_mask (f : BitVec 1) : f &&& 1#1 = f := BitVec.and_allOnes

@[simp] theorem and_eight_eq_zero_iff (f : BitVec 4) : f &&& 8#4 = 0#4 ↔ f[3] = false := by revert f; decide

/-! What a row asks of the fields (R75). -/

section

variable (f : Fields)

@[simp] theorem fits_rowNop : rowNop.Fits f ↔
    f.opc = 0x00#8 ∧ f.rd = 0 ∧ f.ra = 0 ∧ f.rb = 0 ∧ f.rc = 0 ∧ f.msel = 0 ∧ f.gsel = 0 := by
  simp [Row.Fits, rowNop, fieldsOf, Fields.masked]

@[simp] theorem fits_rowFadd : rowFadd.Fits f ↔ f.opc = 0x01#8 ∧ f.rc = 0 ∧ f.gsel = 0 := by
  simp [Row.Fits, rowFadd, fieldsOf, Fields.masked]

@[simp] theorem fits_rowFsub : rowFsub.Fits f ↔ f.opc = 0x02#8 ∧ f.rc = 0 ∧ f.gsel = 0 := by
  simp [Row.Fits, rowFsub, fieldsOf, Fields.masked]

@[simp] theorem fits_rowFmul : rowFmul.Fits f ↔ f.opc = 0x03#8 ∧ f.rc = 0 ∧ f.gsel = 0 := by
  simp [Row.Fits, rowFmul, fieldsOf, Fields.masked]

@[simp] theorem fits_rowFinv : rowFinv.Fits f ↔ f.opc = 0x04#8 ∧ f.rb = 0 ∧ f.rc = 0 ∧ f.gsel = 0 := by
  simp [Row.Fits, rowFinv, fieldsOf, Fields.masked]

@[simp] theorem fits_rowPdbl : rowPdbl.Fits f ↔
    f.opc = 0x10#8 ∧ f.rd[3] = false ∧ f.ra[3] = false ∧ f.rb = 0 ∧ f.rc = 0 ∧ f.msel = 0 ∧ f.gsel = 0 := by
  simp [Row.Fits, rowPdbl, fieldsOf, Fields.masked]

@[simp] theorem fits_rowPadd : rowPadd.Fits f ↔
    f.opc = 0x11#8 ∧ f.rd[3] = false ∧ f.ra[3] = false ∧ f.rb[3] = false ∧ f.rc = 0 ∧ f.msel = 0 ∧ f.gsel = 0 := by
  simp [Row.Fits, rowPadd, fieldsOf, Fields.masked]

@[simp] theorem fits_rowPmul : rowPmul.Fits f ↔
    f.opc = 0x12#8 ∧ f.rd[3] = false ∧ f.rb[3] = false ∧ f.rc = 0 ∧ f.msel = 0 ∧ f.gsel = 0 := by
  simp [Row.Fits, rowPmul, fieldsOf, Fields.masked]

@[simp] theorem fits_rowPmulG : rowPmulG.Fits f ↔
    f.opc = 0x12#8 ∧ f.rd[3] = false ∧ f.rb = 0 ∧ f.rc = 0 ∧ f.msel = 0 ∧ f.gsel = 1 := by
  simp [Row.Fits, rowPmulG, fieldsOf, Fields.masked]

@[simp] theorem fits_rowPchk : rowPchk.Fits f ↔
    f.opc = 0x13#8 ∧ f.ra[3] = false ∧ f.rb = 0 ∧ f.rc = 0 ∧ f.msel = 0 ∧ f.gsel = 0 := by
  simp [Row.Fits, rowPchk, fieldsOf, Fields.masked]

@[simp] theorem fits_rowSign : rowSign.Fits f ↔ f.opc = 0x20#8 ∧ f.msel = 0 ∧ f.gsel = 0 := by
  simp [Row.Fits, rowSign, fieldsOf, Fields.masked]

@[simp] theorem fits_rowDer : rowDer.Fits f ↔
    f.opc = 0x21#8 ∧ f.rd = 0 ∧ f.rc = 0 ∧ f.msel = 0 ∧ f.gsel = 0 := by
  simp [Row.Fits, rowDer, fieldsOf, Fields.masked]

end

/-! Encode of decode (R78, R81). -/

theorem build_rowSign {f : Fields} {i : Instr} :
    rowSign.build f = some i ↔ f.rd ≠ f.rc ∧ i = .sign (wIdxOf f.rd) (wIdxOf f.rc) (wIdxOf f.ra) (wIdxOf f.rb) := by
  simp [rowSign, eq_comm]

@[simp] theorem pField_bit_three (j : PIdx) : (pField j)[3] = false := (and_eight_eq_zero_iff _).mp (pField_and_eight j)

@[simp] theorem pField_pIdxOf_of_low {f : BitVec 4} (h : f[3] = false) : pField (pIdxOf f) = f :=
  pField_pIdxOf ((and_eight_eq_zero_iff f).mpr h)

/-- A row builds from fields that fit it a well-formed command with those fields (R72, R73, R75). -/
theorem fieldsFor_of_build {r : Row} {f : Fields} {i : Instr} (hr : r ∈ rows) (hf : r.Fits f) (hi : r.build f = some i) :
    fieldsFor i = f ∧ i.wellFormed = true := by
  obtain ⟨opc, rd, ra, rb, rc, msel, gsel⟩ := f
  simp only [rows, List.mem_cons, List.not_mem_nil, or_false] at hr
  rcases hr with rfl | rfl | rfl | rfl | rfl | rfl | rfl | rfl | rfl | rfl | rfl | rfl
  on_goal 11 => -- SIGN's row builds a command only where the destinations differ
    obtain ⟨hne, rfl⟩ := build_rowSign.mp hi
    exact ⟨by simp_all [fieldsFor], wellFormed_sign.mpr fun h => hne (congrArg wField h)⟩
  all_goals
    cases hi
    exact ⟨by simp_all [fieldsFor], rfl⟩

/-- Settles O3: the row that reads the command fixes every field of the word. -/
theorem encodeOfDecodeIsIdentity : Obligations.EncodeOfDecodeIsIdentity := by
  intro c i h
  obtain ⟨r, hr, hread⟩ := decode_eq_row_iff.mp h
  obtain ⟨hs, hi⟩ := read_eq_some_iff.mp hread
  obtain ⟨hres, hf⟩ := (spells_iff_fits hr c).mp hs
  obtain ⟨hfields, hwf⟩ := fieldsFor_of_build hr hf hi
  exact ⟨by rw [encode, hfields, pack_fieldsOf hres], hwf⟩

/-! Illegal words (R77). -/

/-- The word of a well-formed command meets none of the conditions. -/
theorem not_illegalByRule_encode {i : Instr} (h : i.wellFormed = true) : ¬ illegalByRule (encode i) := by
  have hres : (encode i).extractLsb' 26 6 = 0#6 := (reserved_eq_zero_iff _).mpr (pack_and_reserved _)
  rw [illegalByRule, hres, encode, fieldsOf_pack]
  cases i with
  | sign wr ws we wd =>
    simp [fieldsFor, unusedFieldSet, pointIndexTooHigh, wellFormed_sign.mp h]
  | nop | fadd | fsub | fmul | finv | pdbl | padd | pmul | pmulG | pchk | der =>
    simp [fieldsFor, unusedFieldSet, pointIndexTooHigh]

/-- Fields that meet none of (a), (c) and (d) fit the row, or one of the two rows, of their opcode. -/
theorem exists_row_fits {f : Fields}
    (hopc : f.opc ∈ [0x00#8, 0x01#8, 0x02#8, 0x03#8, 0x04#8, 0x10#8, 0x11#8, 0x12#8, 0x13#8, 0x20#8, 0x21#8])
    (hunused : ¬ unusedFieldSet f) (hpoint : ¬ pointIndexTooHigh f) : ∃ r ∈ rows, r.Fits f := by
  simp only [List.mem_cons, List.not_mem_nil, or_false] at hopc
  rcases hopc with h | h | h | h | h | h | h | h | h | h | h
  · exact ⟨rowNop, by simp [rows], by simp_all [unusedFieldSet]⟩
  · exact ⟨rowFadd, by simp [rows], by simp_all [unusedFieldSet]⟩
  · exact ⟨rowFsub, by simp [rows], by simp_all [unusedFieldSet]⟩
  · exact ⟨rowFmul, by simp [rows], by simp_all [unusedFieldSet]⟩
  · exact ⟨rowFinv, by simp [rows], by simp_all [unusedFieldSet]⟩
  · exact ⟨rowPdbl, by simp [rows], by simp_all [unusedFieldSet, pointIndexTooHigh]⟩
  · exact ⟨rowPadd, by simp [rows], by simp_all [unusedFieldSet, pointIndexTooHigh]⟩
  · rcases BitVec.eq_zero_or_eq_one f.gsel with hg | hg
    · exact ⟨rowPmul, by simp [rows], by simp_all [unusedFieldSet, pointIndexTooHigh]⟩
    · exact ⟨rowPmulG, by simp [rows], by simp_all [unusedFieldSet, pointIndexTooHigh]⟩
  · exact ⟨rowPchk, by simp [rows], by simp_all [unusedFieldSet, pointIndexTooHigh]⟩
  · exact ⟨rowSign, by simp [rows], by simp_all [unusedFieldSet]⟩
  · exact ⟨rowDer, by simp [rows], by simp_all [unusedFieldSet]⟩

/-- A row builds nothing from fields that fit it only where it is SIGN's and the destinations are equal: condition (e). -/
theorem dests_eq_of_build_eq_none {r : Row} (hr : r ∈ rows) {f : Fields} (hf : r.Fits f) (hb : r.build f = none) :
    f.opc = 0x20#8 ∧ f.rd = f.rc := by
  simp only [rows, List.mem_cons, List.not_mem_nil, or_false] at hr
  rcases hr with rfl | rfl | rfl | rfl | rfl | rfl | rfl | rfl | rfl | rfl | rfl | rfl
  on_goal 11 => -- SIGN's row
    exact ⟨((fits_rowSign f).mp hf).1, by simpa [rowSign] using hb⟩
  all_goals cases hb

/-- A word decodes to ILLEGAL exactly under R77. -/
theorem decode_eq_illegal_iff_illegalByRule (c : Bus) : decode c = .illegal ↔ illegalByRule c := by
  constructor
  · intro hill
    by_contra hrule
    simp only [illegalByRule, not_or, not_not] at hrule
    obtain ⟨hopc, hres, hunused, hpoint, hdests⟩ := hrule
    obtain ⟨r, hr, hf⟩ := exists_row_fits hopc hunused hpoint
    have hnone := decode_eq_illegal_iff.mp hill r hr
    rw [Row.read, if_pos ((spells_iff_fits hr c).mpr ⟨hres, hf⟩)] at hnone
    exact hdests (dests_eq_of_build_eq_none hr hf hnone)
  · intro hrule
    cases hdec : decode c with
    | illegal => rfl
    | row i =>
      obtain ⟨rfl, hwf⟩ := encodeOfDecodeIsIdentity c i hdec
      exact absurd hrule (not_illegalByRule_encode hwf)

/-- Settles O4: the write issues the word, and the engine's turn finds it illegal. -/
theorem illegalWordsExactlyByRule : Obligations.IllegalWordsExactlyByRule := by
  intro c
  refine ⟨decode_eq_illegal_iff_illegalByRule c, fun hrule s he hr => ?_⟩
  have hissue : s.writeLoc c .cmd = s.issue c := unlessBusy_of_idle he _
  have hdec : decode (s.issue c).cur = .illegal := (decode_eq_illegal_iff_illegalByRule c).mpr hrule
  rw [hissue]
  exact ⟨rfl, rfl, (engineTurn_run (s := s.issue c) hr rfl).trans (runWord_illegal hdec)⟩

end Sys2Proof
end

section
/-! PROOFS. The scan of `PScalar` never leaves the curve `y^2 = x^3 + c` that its point lies on, and never raises: of two
points of one such curve with equal x the y are equal or opposite (R111 to R113, R118). -/

namespace Sys2Proof.Machine

/-- The point lies on the curve `y^2 = x^3 + c`; INF lies on every one (R118). -/
def Point.LiesOn (c : ZMod fieldPrime) : Point → Prop
  | .inf => True
  | .fin x y => (y : ZMod fieldPrime) ^ 2 - (x : ZMod fieldPrime) ^ 3 = c

theorem exists_liesOn (p : Point) : ∃ c, p.LiesOn c := by
  cases p with
  | inf => exact ⟨0, trivial⟩
  | fin x y => exact ⟨_, rfl⟩

section
variable [Fact fieldPrime.Prime] {c : ZMod fieldPrime}

/-- The tangent at a point meets the point's curve again, in the opposite of the double. -/
theorem Point.LiesOn.pDouble {p : Point} (h : p.LiesOn c) : (pDouble p).LiesOn c := by
  cases p with
  | inf => trivial
  | fin x y =>
    by_cases hy : (y : ZMod fieldPrime) = 0
    · rw [pDouble_of_y_eq_zero hy]
      trivial
    · obtain ⟨x3, y3, e, -, hx3, hy3⟩ := pDouble_of_y_ne_zero (x := x) hy
      have hlam : 3 * (x : ZMod fieldPrime) ^ 2 / (2 * y) * (2 * y) = 3 * x ^ 2 :=
        div_mul_cancel₀ _ (mul_ne_zero two_ne_zero_mod_fieldPrime hy)
      simp only [Point.LiesOn] at h
      rw [e, Point.LiesOn, ← h, hy3, hx3]
      generalize 3 * (x : ZMod fieldPrime) ^ 2 / (2 * y) = lam at hlam
      linear_combination (lam ^ 2 - 3 * x) * hlam

/-- The chord through two points of one curve meets it again, in the opposite of the sum; and of two points with equal x
the y are equal or opposite, so that the sum is never an error (R112, R118). -/
theorem Point.LiesOn.pAdd {p q : Point} (hp : p.LiesOn c) (hq : q.LiesOn c) : ∃ r, pAdd p q = some r ∧ r.LiesOn c := by
  cases p with
  | inf => exact ⟨q, rfl, hq⟩
  | fin x y =>
  cases q with
  | inf => exact ⟨_, rfl, hp⟩
  | fin x' y' =>
  by_cases hx : (x : ZMod fieldPrime) = x'
  · by_cases hy : (y : ZMod fieldPrime) = y'
    · exact ⟨_, pAdd_of_eq hx hy, hp.pDouble⟩
    · simp only [Point.LiesOn] at hp hq
      have hsq : (y : ZMod fieldPrime) ^ 2 = (y' : ZMod fieldPrime) ^ 2 := by
        rw [← sub_left_inj, hp, hx, hq]
      exact ⟨_, pAdd_of_neg hx hy ((sq_eq_sq_iff_eq_or_eq_neg.mp hsq).resolve_left hy), trivial⟩
  · obtain ⟨x3, y3, e, -, hx3, hy3⟩ := pAdd_of_x_ne (y := y) (y' := y') hx
    refine ⟨_, e, ?_⟩
    have hne : (x' : ZMod fieldPrime) - x ≠ 0 := sub_ne_zero.mpr (Ne.symm hx)
    have hlam : ((y' : ZMod fieldPrime) - y) / (x' - x) * (x' - x) = y' - y := div_mul_cancel₀ _ hne
    simp only [Point.LiesOn] at hp hq
    rw [Point.LiesOn, ← hp, hy3, hx3]
    generalize ((y' : ZMod fieldPrime) - y) / (x' - x) = lam at hlam
    have hthird : (2 * x + x' - lam ^ 2) * (x' - x) + 3 * (x : ZMod fieldPrime) ^ 2 - 2 * lam * y = 0 := by
      refine (mul_eq_zero.mp ?_).resolve_left hne
      linear_combination hp - hq - (lam * (x' - x) + y + y') * hlam
    linear_combination (2 * x + x' - lam ^ 2) * hthird

theorem pScalarLoop_liesOn {p : Point} (hp : p.LiesOn c) (k : Nat) :
    ∀ (i : Nat) (acc : Point), acc.LiesOn c → ∃ q, pScalarLoop k p i acc = some q ∧ q.LiesOn c
  | 0, acc, h => ⟨acc, rfl, h⟩
  | i + 1, acc, h => by
    rw [pScalarLoop]
    split_ifs
    · obtain ⟨r, e, hr⟩ := h.pDouble.pAdd hp
      rw [e]
      exact pScalarLoop_liesOn hp k i r hr
    · exact pScalarLoop_liesOn hp k i _ h.pDouble

/-- `PScalar` answers a point of its operand's own curve, whichever that is (R118). -/
theorem Point.LiesOn.pScalar {p : Point} (hp : p.LiesOn c) (k : Nat) : ∃ q, pScalar k p = some q ∧ q.LiesOn c :=
  pScalarLoop_liesOn hp k 256 .inf trivial

end

/-- `PScalar` never raises ARITH_DOMAIN (R118). -/
theorem exists_pScalar_eq (k : Nat) (p : Point) : ∃ q, pScalar k p = some q := by
  have : Fact fieldPrime.Prime := ⟨fieldPrime_prime⟩
  obtain ⟨c, hp⟩ := exists_liesOn p
  obtain ⟨q, e, -⟩ := hp.pScalar k
  exact ⟨q, e⟩

end Sys2Proof.Machine
end

section
/-! PROOFS. What one engine step of each command does to the state: a command other than SIGN has one of five effects, which
its operands decide, and a SIGN's step fails, requests a draw or commits (R88 to R95, R125 to R130, R145). -/

namespace Sys2Proof.Machine

open Sys2Proof.Claim

/-! The effects of the commands other than SIGN. -/

/-- What a command other than SIGN does in its step: it raises an error, or commits nothing, a scalar, a point or an
encoding (R93, R94). -/
inductive Effect where
  | error (code : ErrCode)
  | nothing
  | scalar (rd : WIdx) (v : Nat)
  | point (rd : PIdx) (q : Point)
  | encoding (r sv : Word)

/-- The state that an effect leaves, its completion included (R95). -/
def Effect.apply (s : State) : Effect → State
  | .error code => s.raise code
  | .nothing => s.complete .none
  | .scalar rd v => (s.putW rd (wordOf v)).complete .none
  | .point rd q => (s.putPt rd q).complete .none
  | .encoding r sv => (s.putDer (derSig r sv)).complete .none

/-- The effect is one that the command's rule allows: an error of its row of R145, or a result in its destinations. -/
def Effect.Fits (i : Instr) : Effect → Prop
  | .error code => code ∈ codes i ∧ code ≠ .none
  | .nothing => i = .nop
  | .scalar rd _ => dests i = [rd]
  | .point rd _ => dests i = pair rd
  | .encoding _ _ => isDer i = true

theorem none_mem_codes (i : Instr) : .none ∈ codes i := by cases i <;> exact List.mem_cons_self

theorem precondition_mem_codes {i : Instr} (h : i ≠ .nop) : .precondition ∈ codes i := by
  cases i <;> simp [codes] at h ⊢

theorem dests_of_isDer {i : Instr} (h : isDer i = true) : dests i = [] := by
  cases i <;> simp [isDer, dests] at h ⊢

/-- The two states agree on the operands of the command: their values, VALID bits and infinity bits (R91). -/
def SameOperands (i : Instr) (s s' : State) : Prop :=
  (∀ k ∈ scalarSources i ++ (pointSources i).flatMap pair,
    s'.w[k] = s.w[k] ∧ s'.valid.getLsbD k.val = s.valid.getLsbD k.val) ∧
  (∀ j ∈ pointSources i, s'.pinf.getLsbD j.val = s.pinf.getLsbD j.val)

theorem sameOperands_refl (i : Instr) (s : State) : SameOperands i s s := ⟨fun _ _ => ⟨rfl, rfl⟩, fun _ _ => rfl⟩

/-- The two outcomes are those of one effect that fits the command, on `s` and on `s'`. -/
def SameEffect (i : Instr) (s s' : State) (o o' : Out) : Prop :=
  ∃ e : Effect, e.Fits i ∧ o = .next (e.apply s) ∧ o' = .next (e.apply s')

section
variable {i : Instr} {s s' : State}

theorem SameOperands.scalar (h : SameOperands i s s') {k : WIdx} (hk : k ∈ scalarSources i) :
    s'.wReg k = s.wReg k ∧ s'.isValid k = s.isValid k :=
  h.1 k (List.mem_append_left _ hk)

theorem SameOperands.point (h : SameOperands i s s') {j : PIdx} (hj : j ∈ pointSources i) :
    s'.point j = s.point j ∧ s'.ptReadable j = s.ptReadable j := by
  have hpair {k : WIdx} (hk : k ∈ pair j) : s'.wReg k = s.wReg k ∧ s'.isValid k = s.isValid k :=
    h.1 k (List.mem_append_right _ (List.mem_flatMap.mpr ⟨j, hj, hk⟩))
  obtain ⟨hx, hvx⟩ := hpair (k := xReg j) List.mem_cons_self
  obtain ⟨hy, hvy⟩ := hpair (k := yReg j) (List.mem_cons_of_mem _ List.mem_cons_self)
  have hinf : s'.isInf j = s.isInf j := h.2 j hj
  simp [State.point, State.ptReadable, hx, hvx, hy, hvy, hinf]

/-! How a command's meaning composes. -/

theorem sameEffect_error {code : ErrCode} (h : code ∈ codes i ∧ code ≠ .none) :
    SameEffect i s s' (.next (s.raise code)) (.next (s'.raise code)) := ⟨.error code, h, rfl, rfl⟩

theorem sameEffect_commitW {rd : WIdx} (h : dests i = [rd]) (v : Nat) :
    SameEffect i s s' (commitW s rd v) (commitW s' rd v) := ⟨.scalar rd v, h, rfl, rfl⟩

theorem sameEffect_commitPt {rd : PIdx} (h : dests i = pair rd) (q : Point) :
    SameEffect i s s' (commitPt s rd q) (commitPt s' rd q) := ⟨.point rd q, h, rfl, rfl⟩

theorem sameEffect_commitPtOrRaise {rd : PIdx} (h : dests i = pair rd) {q : Option Point}
    (hq : q = none → .arithDomain ∈ codes i) : SameEffect i s s' (commitPtOrRaise s rd q) (commitPtOrRaise s' rd q) := by
  cases q with
  | none => exact sameEffect_error ⟨hq rfl, by simp⟩
  | some q => exact sameEffect_commitPt h q

/-- A check of one W operand fails in both states, or both go on with one value (R88). -/
theorem SameOperands.withW (h : SameOperands i s s') {k : WIdx} (hk : k ∈ scalarSources i) {f f' : Word → Out}
    (hf : ∀ v, SameEffect i s s' (f v) (f' v)) : SameEffect i s s' (withW s k f) (withW s' k f') := by
  obtain ⟨hw, hv⟩ := h.scalar hk
  have hnop : i ≠ .nop := by
    rintro rfl
    cases hk
  cases hs : s.isValid k with
  | false =>
    rw [withW_of_invalid hs, withW_of_invalid (hv.trans hs)]
    exact sameEffect_error ⟨precondition_mem_codes hnop, by simp⟩
  | true =>
    rw [withW_of_valid hs, withW_of_valid (hv.trans hs), hw]
    exact hf _

/-- A check of one point operand fails in both states, or both go on with one point (R24, R88). -/
theorem SameOperands.withPt (h : SameOperands i s s') {j : PIdx} (hj : j ∈ pointSources i) {f f' : Point → Out}
    (hf : ∀ p, SameEffect i s s' (f p) (f' p)) : SameEffect i s s' (withPt s j f) (withPt s' j f') := by
  obtain ⟨hp, hr⟩ := h.point hj
  have hnop : i ≠ .nop := by
    rintro rfl
    cases hj
  cases hs : s.ptReadable j with
  | false =>
    rw [withPt_of_unreadable hs, withPt_of_unreadable (hr.trans hs)]
    exact sameEffect_error ⟨precondition_mem_codes hnop, by simp⟩
  | true =>
    rw [withPt_of_readable hs, withPt_of_readable (hr.trans hs), hp]
    exact hf _

theorem SameOperands.fieldCommand (h : SameOperands i s s') {rd ra rb : WIdx} (hd : dests i = [rd])
    (hsrc : scalarSources i = [ra, rb]) (m : Modulus) (f : Int → Int → Int) :
    SameEffect i s s' (fieldCommand m rd ra rb f s) (fieldCommand m rd ra rb f s') :=
  h.withW (by simp [hsrc]) fun _ => h.withW (by simp [hsrc]) fun _ => sameEffect_commitW hd _

/-- A command other than SIGN has one effect, which fits the command, in all states that agree on its operands (R90, R91). -/
theorem SameOperands.exec (h : SameOperands i s s') (hi : isSign i = false) : SameEffect i s s' (exec i s) (exec i s') := by
  have hraise {k : Nat} {p : Point} (e : pScalar k p = none) : .arithDomain ∈ codes i := by
    obtain ⟨q, hq⟩ := exists_pScalar_eq k p
    rw [hq] at e
    cases e
  cases i with
  | nop => exact ⟨.nothing, rfl, rfl, rfl⟩
  | fadd m rd ra rb => exact h.fieldCommand rfl rfl m _
  | fsub m rd ra rb => exact h.fieldCommand rfl rfl m _
  | fmul m rd ra rb => exact h.fieldCommand rfl rfl m _
  | finv m rd ra =>
    simp only [exec, execFinv]
    refine h.withW List.mem_cons_self fun a => ?_
    split_ifs
    · exact sameEffect_commitW rfl _
    · exact sameEffect_error (by simp [codes])
  | pdbl rd ra =>
    simp only [exec, execPdbl]
    exact h.withPt List.mem_cons_self fun p => sameEffect_commitPt rfl _
  | padd rd ra rb =>
    simp only [exec, execPadd]
    exact h.withPt List.mem_cons_self fun p => h.withPt (by simp [pointSources]) fun q =>
      sameEffect_commitPtOrRaise rfl fun _ => by simp [codes]
  | pmul rd ra rb =>
    simp only [exec, execPmul]
    exact h.withW List.mem_cons_self fun k => h.withPt List.mem_cons_self fun p => sameEffect_commitPtOrRaise rfl hraise
  | pmulG rd ra =>
    simp only [exec, execPmulG]
    exact h.withW List.mem_cons_self fun k => sameEffect_commitPtOrRaise rfl hraise
  | pchk rd ra =>
    simp only [exec, execPchk]
    exact h.withPt List.mem_cons_self fun p => sameEffect_commitW rfl _
  | sign wr ws we wd => cases hi
  | der wr ws =>
    simp only [exec, execDer]
    exact h.withW List.mem_cons_self fun r => h.withW (by simp [scalarSources]) fun sv => ⟨.encoding r sv, rfl, rfl, rfl⟩

end

/-- A command other than SIGN has an effect that fits it (R90). -/
theorem exec_effect {i : Instr} (hi : isSign i = false) (s : State) :
    ∃ e : Effect, e.Fits i ∧ exec i s = .next (e.apply s) := by
  obtain ⟨e, hfits, he, -⟩ := (sameOperands_refl i s).exec hi
  exact ⟨e, hfits, he⟩

/-! The steps of SIGN. -/

/-- What a step of SIGN can come to: an error with at most the draws counted, a request for a draw, or a commit (R125 to
R127, R148). -/
inductive SignEnding (wr ws : WIdx) (s : State) : State → Prop
  | error (code : ErrCode) (attempts draws : Nat)
      (h : code = .inputError ∨ code = .keyFormat ∨ code = .precondition ∨ code = .retryLimit) :
      SignEnding wr ws s ({ s with attempts := attempts, draw := none }.raiseSign code draws)
  | request (snap : Snap) (attempts : Nat) :
      SignEnding wr ws s { s with snap := snap, attempts := attempts, draw := none }.requestDraw
  | commit (r sv : Nat) : SignEnding wr ws s (signCommit wr ws r sv s.takeDraw)

/-- The evaluation of a draw never ends in ARITH_DOMAIN (R130). -/
theorem signDraw_ne_domainError (k e d : Nat) : signDraw k e d ≠ .domainError := by
  obtain ⟨q, hq⟩ := exists_pScalar_eq k basePoint
  unfold signDraw
  rw [hq]
  split_ifs
  · exact SignResult.noConfusion
  · cases q with
    | inf => exact SignResult.noConfusion
    | fin x y =>
      dsimp only
      split_ifs <;> exact SignResult.noConfusion

/-- A SIGN step that answers a next state ends in one of the ways of `SignEnding`. -/
theorem execSign_ending {wr ws we wd : WIdx} {s t : State} (h : execSign wr ws we wd s = .next t) : SignEnding wr ws s t := by
  rcases execSign_next h with ⟨hd, rfl⟩ | ⟨k, -, rfl | ⟨r, sv, -, rfl⟩ | ⟨hdom, -⟩⟩
  · have hs : s = { s with attempts := s.attempts, draw := none } := by rw [← hd]
    rcases signCheck_cases we wd s with ⟨code, hcode, e⟩ | ⟨-, -, -, e⟩ <;> rw [e]
    · rw [hs]
      exact .error code _ 0 (by tauto)
    · rw [hs]
      exact .request _ 0
  · rcases signReject_cases s.takeDraw with ⟨-, e⟩ | ⟨-, e⟩ <;> rw [e]
    · exact .error .retryLimit _ _ (by simp)
    · exact .request s.snap _
  · exact .commit r sv
  · exact absurd hdom (signDraw_ne_domainError _ _ _)

/-- A command's step is a step of SIGN, or has an effect that fits the command. -/
theorem exec_signEnding_or_effect {i : Instr} {s t : State} (h : exec i s = .next t) :
    (∃ wr ws we wd, i = .sign wr ws we wd ∧ SignEnding wr ws s t) ∨
    (isSign i = false ∧ ∃ e : Effect, e.Fits i ∧ t = e.apply s) := by
  rcases exec_cases h with ⟨wr, ws, we, wd, rfl, hsign⟩ | ⟨hi, -⟩
  · exact .inl ⟨wr, ws, we, wd, rfl, execSign_ending hsign⟩
  · obtain ⟨e, hfits, he⟩ := exec_effect hi s
    refine .inr ⟨hi, e, hfits, ?_⟩
    rw [he] at h
    cases h
    rfl

end Sys2Proof.Machine
end

section
/-! PROOFS. The command cycle: issue, the engine's step on the latched word, what a command changes and what its outcome
depends on, and the ways it completes (R86 to R99, R145, R148, R152). -/

namespace Sys2Proof.Machine

open Sys2Proof.Claim

/-! Issue and dispatch (R86, R87). -/

/-- Settles O6: the turn is the engine's, and in RUN the engine runs the latched word. -/
theorem stepRunsTheDecodedCommand : Obligations.StepRunsTheDecodedCommand := by
  intro s i hr he hdec
  have hturn (a : List Event) : engineTurn { s with agenda := a } = exec i { s with agenda := a } :=
    (engineTurn_run (s := { s with agenda := a }) hr he).trans (runWord_row hdec)
  exact ⟨fun h => (step_nil h).trans (hturn s.agenda), fun rest h => (step_cons h).trans (hturn rest)⟩

/-- Settles O7: the write is an issue, and the word of a well-formed command decodes to it. -/
theorem issueLatchesTheWordAndItRunsNext : Obligations.IssueLatchesTheWordAndItRunsNext := by
  intro s hr he
  have hissue (v : Bus) : s.hostAccess (.write (s.cfg.base + 0x008) 4 v) = { s.issue v with resp := .done } :=
    hostAccess_write_idle hr he rfl (by norm_num) rfl
  refine ⟨fun v => ?_, fun i hi => ?_⟩
  · rw [hissue]
    exact ⟨rfl, Bool.and_false _, rfl⟩
  · rw [hissue]
    exact (engineTurn_run (s := { s.issue (encode i) with resp := .done }) hr rfl).trans
      (runWord_row (decodeOfEncodeIsIdentity i hi))

/-- Settles O8: NOP's meaning is its completion. -/
theorem nopOnlyCompletes : Obligations.NopOnlyCompletes := fun _ => rfl

/-- Settles O9: every effect completes the command. -/
theorem nonSignCommandsCompleteInOneStep : Obligations.NonSignCommandsCompleteInOneStep := by
  intro i s hi
  obtain ⟨e, -, he⟩ := exec_effect hi s
  refine ⟨_, he, ?_⟩
  cases e <;> exact ⟨rfl, rfl, rfl⟩

/-! What a command leaves unchanged (R93). -/

@[simp] theorem xReg_div_two (j : PIdx) : (xReg j).val / 2 = j.val := by
  simp only [xReg]
  omega

@[simp] theorem yReg_div_two (j : PIdx) : (yReg j).val / 2 = j.val := by
  simp only [yReg]
  omega

theorem xReg_ne_yReg (j : PIdx) : (xReg j).val ≠ (yReg j).val := by
  simp only [xReg, yReg]
  omega

/-- From `s` to `t` only the registers `ds` change, and the infinity bits of their pairs. -/
def KeepsOtherRegisters (ds : List WIdx) (s t : State) : Prop :=
  (∀ k : WIdx, k ∉ ds → t.w[k] = s.w[k] ∧ t.valid.getLsbD k.val = s.valid.getLsbD k.val) ∧
  (∀ j : PIdx, (∀ k ∈ ds, k.val / 2 ≠ j.val) → t.pinf.getLsbD j.val = s.pinf.getLsbD j.val)

theorem keepsOtherRegisters_refl (ds : List WIdx) (s : State) : KeepsOtherRegisters ds s s :=
  ⟨fun _ _ => ⟨rfl, rfl⟩, fun _ _ => rfl⟩

theorem KeepsOtherRegisters.putW {ds : List WIdx} {s t : State} (h : KeepsOtherRegisters ds s t) {rd : WIdx} (hrd : rd ∈ ds)
    (v : Word) : KeepsOtherRegisters ds s (t.putW rd v) := by
  obtain ⟨hreg, hinf⟩ := h
  refine ⟨fun k hk => ?_, fun j hj => ?_⟩
  · have hne : k.val ≠ rd.val := fun e => hk (Fin.ext e ▸ hrd)
    simp [-BitVec.getLsbD_eq_getElem, hne, hne.symm, ← hreg k hk]
  · have hne : j.val ≠ (pairOf rd).val := (hj rd hrd).symm
    simp [-BitVec.getLsbD_eq_getElem, hne, hinf j hj]

theorem KeepsOtherRegisters.putPt {s t : State} {rd : PIdx} (h : KeepsOtherRegisters (pair rd) s t) (q : Point) :
    KeepsOtherRegisters (pair rd) s (t.putPt rd q) := by
  obtain ⟨hreg, hinf⟩ := h
  refine ⟨fun k hk => ?_, fun j hj => ?_⟩
  · have hx : k.val ≠ (xReg rd).val := fun e => hk (List.mem_cons.mpr (.inl (Fin.ext e)))
    have hy : k.val ≠ (yReg rd).val := fun e => hk (List.mem_cons_of_mem _ (List.mem_singleton.mpr (Fin.ext e)))
    simp [-BitVec.getLsbD_eq_getElem, hx, hx.symm, hy, hy.symm, ← hreg k hk]
  · have hne : j.val ≠ rd.val := by
      have hpair := hj (xReg rd) List.mem_cons_self
      rw [xReg_div_two] at hpair
      exact hpair.symm
    simp [-BitVec.getLsbD_eq_getElem, hne, hinf j hj]

/-- An effect that fits a command writes no register but the command's destinations. -/
theorem Effect.Fits.keepsOtherRegisters {i : Instr} {e : Effect} (h : e.Fits i) (s : State) :
    KeepsOtherRegisters (dests i) s (e.apply s) := by
  cases e with
  | error code => exact keepsOtherRegisters_refl _ s
  | nothing => exact keepsOtherRegisters_refl _ s
  | scalar rd v =>
    rw [show dests i = [rd] from h]
    exact (keepsOtherRegisters_refl _ s).putW List.mem_cons_self _
  | point rd q =>
    rw [show dests i = pair rd from h]
    exact (keepsOtherRegisters_refl _ s).putPt q
  | encoding r sv => exact keepsOtherRegisters_refl _ s

/-- A SIGN's step writes no register but its destinations. -/
theorem SignEnding.keepsOtherRegisters {wr ws : WIdx} {s t : State} (h : SignEnding wr ws s t) :
    KeepsOtherRegisters [wr, ws] s t := by
  cases h with
  | error code attempts draws _ => exact keepsOtherRegisters_refl _ s
  | request snap attempts => exact keepsOtherRegisters_refl _ s
  | commit r sv => exact ((keepsOtherRegisters_refl _ s).putW (by simp) _).putW (by simp) _

/-- No command writes the control registers or what lies outside the block (R93). -/
theorem exec_keeps_control {i : Instr} {s t : State} (h : exec i s = .next t) :
    t.ie = s.ie ∧ t.ovr = s.ovr ∧ t.cur = s.cur ∧ t.msgLen = s.msgLen ∧ t.rst = s.rst ∧ t.cfg = s.cfg ∧
    t.agenda = s.agenda ∧ t.resp = s.resp ∧ t.freeCount = s.freeCount := by
  rcases exec_signEnding_or_effect h with ⟨wr, ws, we, wd, rfl, hend⟩ | ⟨-, e, -, rfl⟩
  · cases hend <;> exact ⟨rfl, rfl, rfl, rfl, rfl, rfl, rfl, rfl, rfl⟩
  · cases e <;> exact ⟨rfl, rfl, rfl, rfl, rfl, rfl, rfl, rfl, rfl⟩

/-- Only an encoding writes the DER state. -/
theorem Effect.Fits.keeps_der {i : Instr} {e : Effect} (h : e.Fits i) (hi : isDer i = false) (s : State) :
    (e.apply s).derBuf = s.derBuf ∧ (e.apply s).derLen = s.derLen := by
  cases e with
  | error | nothing | scalar | point => exact ⟨rfl, rfl⟩
  | encoding r sv => exact absurd h (by simp [Effect.Fits, hi])

/-- No effect writes SIGN_DRAWS or the hidden elements of a SIGN (R34, R35). -/
theorem Effect.keeps_sign (e : Effect) (s : State) :
    (e.apply s).signDraws = s.signDraws ∧ (e.apply s).attempts = s.attempts ∧ (e.apply s).snap = s.snap ∧
      (e.apply s).draw = s.draw := by
  cases e <;> exact ⟨rfl, rfl, rfl, rfl⟩

/-- Settles O10, field by field of a SIGN's ending or of another command's effect. -/
theorem commandFrame : Obligations.CommandFrame := by
  intro i s t h
  have hcontrol := exec_keeps_control h
  rcases exec_signEnding_or_effect h with ⟨wr, ws, we, wd, rfl, hend⟩ | ⟨-, e, hfits, rfl⟩
  · obtain ⟨hreg, hinf⟩ := hend.keepsOtherRegisters
    exact ⟨hreg, hinf, nofun, nofun, hcontrol⟩
  · obtain ⟨hreg, hinf⟩ := hfits.keepsOtherRegisters s
    exact ⟨hreg, hinf, fun _ hd => hfits.keeps_der hd s, fun _ => e.keeps_sign s, hcontrol⟩

/-! What the outcome of a command depends on (R91). -/

theorem Effect.apply_errCode_eq (e : Effect) (s s' : State) : (e.apply s').errCode = (e.apply s).errCode := by
  cases e <;> rfl

/-- What an effect that fits a command leaves in the command's destinations is the same in all states, unless it is an error. -/
theorem Effect.Fits.dests_eq {i : Instr} {e : Effect} (h : e.Fits i) (s s' : State) (hok : (e.apply s).errCode = .none) :
    ∀ k ∈ dests i, (e.apply s').w[k] = (e.apply s).w[k] ∧
      (e.apply s').valid.getLsbD k.val = (e.apply s).valid.getLsbD k.val ∧
      (e.apply s').pinf.getLsbD (k.val / 2) = (e.apply s).pinf.getLsbD (k.val / 2) := by
  intro k hk
  cases e with
  | error code => exact absurd hok h.2
  | nothing =>
    obtain rfl : i = .nop := h
    cases hk
  | scalar rd v =>
    rw [show dests i = [rd] from h, List.mem_singleton] at hk
    subst hk
    simp [-BitVec.getLsbD_eq_getElem, Effect.apply, pairOf]
  | point rd q =>
    rw [show dests i = [xReg rd, yReg rd] from h] at hk
    have hkx : k = xReg rd ∨ k = yReg rd := by simpa using hk
    rcases hkx with rfl | rfl
    · simp [-BitVec.getLsbD_eq_getElem, Effect.apply, (xReg_ne_yReg rd).symm]
    · simp [-BitVec.getLsbD_eq_getElem, Effect.apply]
  | encoding r sv =>
    rw [dests_of_isDer h] at hk
    cases hk

/-- What an effect that fits DER leaves in the DER state is the same in all states, unless it is an error. -/
theorem Effect.Fits.der_eq {i : Instr} {e : Effect} (h : e.Fits i) (hi : isDer i = true) (s s' : State)
    (hok : (e.apply s).errCode = .none) :
    (e.apply s').derBuf = (e.apply s).derBuf ∧ (e.apply s').derLen = (e.apply s).derLen := by
  have hd := dests_of_isDer hi
  cases e with
  | error code => exact absurd hok h.2
  | nothing =>
    obtain rfl : i = .nop := h
    cases hi
  | scalar rd v => exact absurd (hd.symm.trans h) (by simp)
  | point rd q => exact absurd (hd.symm.trans h) (by simp [pair])
  | encoding r sv => exact ⟨rfl, rfl⟩

/-- Settles O11: states that agree on the operands see one effect. -/
theorem outcomeDependsOnOperandsOnly : Obligations.OutcomeDependsOnOperandsOnly := by
  intro i s s' t hi hscalar hpoint ht
  obtain ⟨e, hfits, he, he'⟩ := SameOperands.exec (s := s) (s' := s') ⟨hscalar, hpoint⟩ hi
  rw [he] at ht
  cases ht
  exact ⟨_, he', e.apply_errCode_eq s s', fun hok => ⟨hfits.dests_eq s s' hok, fun hd => hfits.der_eq hd s s' hok⟩⟩

/-! How a command completes (R94, R95, R145, R148, R152). -/

/-- Settles O40: an error's effect, and a failing SIGN's ending, are a completion. -/
theorem errorsArePrecise : Obligations.ErrorsArePrecise := by
  intro i s t h hidle herr
  rcases exec_signEnding_or_effect h with ⟨wr, ws, we, wd, rfl, hend⟩ | ⟨hi, e, -, rfl⟩
  · refine ⟨nofun, fun _ => ?_⟩
    cases hend with
    | error code attempts draws _ => rfl
    | request snap attempts => cases hidle
    | commit r sv => exact absurd rfl herr
  · refine ⟨fun _ => ?_, fun hs => absurd hs (by simp [hi])⟩
    cases e with
    | error code => rfl
    | nothing | scalar | point | encoding => exact absurd rfl herr

theorem Effect.Fits.errCode_mem {i : Instr} {e : Effect} (h : e.Fits i) (s : State) : (e.apply s).errCode ∈ codes i := by
  cases e with
  | error code => exact h.1
  | nothing | scalar | point | encoding => exact none_mem_codes i

/-- Settles O41: a fitting effect raises a code of the command's row, and so does a SIGN's ending. -/
theorem errorCodesPerCommand : Obligations.ErrorCodesPerCommand := by
  intro i s t h hidle
  rcases exec_signEnding_or_effect h with ⟨wr, ws, we, wd, rfl, hend⟩ | ⟨-, e, hfits, rfl⟩
  · cases hend with
    | error code attempts draws hcode => rcases hcode with rfl | rfl | rfl | rfl <;> simp [codes]
    | request snap attempts => cases hidle
    | commit r sv => exact none_mem_codes _
  · exact hfits.errCode_mem s

/-- Settles O42: whatever ends a command sets DONE, and none of it writes IE. -/
theorem completionRaisesTheInterrupt : Obligations.CompletionRaisesTheInterrupt := by
  intro i s t h hidle
  have hdone : t.done = true := by
    rcases exec_signEnding_or_effect h with ⟨wr, ws, we, wd, rfl, hend⟩ | ⟨-, e, -, rfl⟩
    · cases hend with
      | error | commit => rfl
      | request snap attempts => cases hidle
    · cases e <;> rfl
  obtain ⟨hie, -⟩ := exec_keeps_control h
  exact ⟨hdone, by rw [State.irq, hdone, hie, Bool.and_true]⟩

end Sys2Proof.Machine
end

section
/-! PROOFS. The field commands: what each writes for written operands, when FINV has an inverse to write, and the bounds of
what they write (R73, R100 to R104). -/

namespace Sys2Proof.Machine

open Sys2Proof.Claim

/-! The two moduli (R18, R20, R73). -/

theorem modulusValue_prime (m : Modulus) : (modulusValue m).Prime := by
  cases m with
  | p => exact fieldPrime_prime
  | n => exact groupOrder_prime

/-- A modulus has 256 bits, so of the multiples of M only 0 and M itself fit in a W register. -/
theorem modulusValue_bounds (m : Modulus) : 2 ^ 255 < modulusValue m ∧ modulusValue m < 2 ^ 256 := by
  cases m <;> decide +kernel

/-- A W register is 0 mod M exactly when it is 0 or M. -/
theorem word_mod_modulus_eq_zero_iff (a : Word) (m : Modulus) :
    a.toNat % modulusValue m = 0 ↔ a.toNat = 0 ∨ a.toNat = modulusValue m := by
  obtain ⟨hlo, -⟩ := modulusValue_bounds m
  have ha := a.isLt
  rcases lt_or_ge a.toNat (modulusValue m) with h | h
  · rw [Nat.mod_eq_of_lt h]
    omega
  · rw [Nat.mod_eq_sub_mod h, Nat.mod_eq_of_lt (by omega)]
    omega

/-- M is prime, so every residue but 0 is prime to it. -/
theorem gcd_mod_modulus_eq_one_iff (a : Nat) (m : Modulus) :
    Nat.gcd (a % modulusValue m) (modulusValue m) = 1 ↔ a % modulusValue m ≠ 0 := by
  have hM := modulusValue_prime m
  rw [← Nat.coprime_iff_gcd_eq_one, Nat.coprime_comm, hM.coprime_iff_not_dvd, Nat.dvd_mod_iff dvd_rfl,
    Nat.dvd_iff_mod_eq_zero]

theorem residue_modulus_lt (z : Int) (m : Modulus) : residue z (modulusValue m) < modulusValue m :=
  residue_lt z (modulusValue_prime m).pos

/-- `inv` mod M of a number that is not 0 mod M (R8, R103). -/
theorem inv_modulus_spec {a : Nat} {m : Modulus} (h : a % modulusValue m ≠ 0) :
    a * inv a (modulusValue m) % modulusValue m = 1 ∧ 0 < inv a (modulusValue m) ∧
      inv a (modulusValue m) < modulusValue m :=
  inv_spec (modulusValue_prime m).one_lt (modulusValue_bounds m).2 ((gcd_mod_modulus_eq_one_iff a m).mpr h)

/-- A number has at most one inverse below the modulus: `u` and `v` are both `u * a * v` mod M. -/
theorem inverse_unique {a u v M : Nat} (hu : u < M) (hv : v < M) (hau : a * u % M = 1) (hav : a * v % M = 1) : u = v := by
  calc u = a * v % M * u % M := by rw [hav, one_mul, Nat.mod_eq_of_lt hu]
    _ = a * u % M * v % M := by rw [Nat.mod_mul_mod, Nat.mod_mul_mod, Nat.mul_right_comm]
    _ = v := by rw [hau, one_mul, Nat.mod_eq_of_lt hv]

/-! What the field commands do with written operands. -/

theorem fieldCommand_of_valid {s : State} {ra rb : WIdx} (ha : s.isValid ra = true) (hb : s.isValid rb = true)
    (m : Modulus) (rd : WIdx) (f : Int → Int → Int) :
    fieldCommand m rd ra rb f s =
      commitW s rd (residue (f (s.wReg ra).toNat (s.wReg rb).toNat) (modulusValue m)) := by
  rw [fieldCommand, withW_of_valid ha, withW_of_valid hb]

/-- FINV commits the inverse of an operand that is not 0 mod M, and raises ARITH_DOMAIN at one that is. -/
theorem execFinv_of_valid {s : State} {ra : WIdx} (ha : s.isValid ra = true) (m : Modulus) (rd : WIdx) :
    execFinv m rd ra s =
      if (s.wReg ra).toNat % modulusValue m = 0 then .next (s.raise .arithDomain)
      else commitW s rd (inv (s.wReg ra).toNat (modulusValue m)) := by
  rw [execFinv, withW_of_valid ha]
  simp only [gcd_mod_modulus_eq_one_iff, ne_eq, ite_not]

/-! What a command that ends without an error has done. -/

/-- A command that reads a W operand and ends without an error has gone on with the operand's value (R88). -/
theorem withW_of_success {s t : State} {i : WIdx} {f : Word → Out} (hok : t.errCode = .none) (h : withW s i f = .next t) :
    s.isValid i = true ∧ f (s.wReg i) = .next t := by
  rcases withW_cases s i f with ⟨hv, e⟩ | ⟨-, e⟩ <;> rw [e] at h
  · exact ⟨hv, h⟩
  · cases h
    cases hok

/-- What a commit leaves in its destination, for a value that fits in the register (R93). -/
theorem commitW_result {s t : State} {rd : WIdx} {v : Nat} (hv : v < 2 ^ 256) (h : commitW s rd v = .next t) :
    t.w[rd].toNat = v := by
  cases h
  simpa [wordOf] using hv

theorem fieldCommand_result_lt {m : Modulus} {rd ra rb : WIdx} {f : Int → Int → Int} {s t : State}
    (hok : t.errCode = .none) (h : fieldCommand m rd ra rb f s = .next t) : t.w[rd].toNat < modulusValue m := by
  obtain ⟨-, hb⟩ := withW_of_success hok h
  obtain ⟨-, hcommit⟩ := withW_of_success hok hb
  have hlt := residue_modulus_lt (f (s.wReg ra).toNat (s.wReg rb).toNat) m
  rwa [commitW_result (hlt.trans (modulusValue_bounds m).2) hcommit]

theorem execFinv_result_bounds {m : Modulus} {rd ra : WIdx} {s t : State} (hok : t.errCode = .none)
    (h : execFinv m rd ra s = .next t) : 1 ≤ t.w[rd].toNat ∧ t.w[rd].toNat < modulusValue m := by
  obtain ⟨ha, -⟩ := withW_of_success hok h
  rw [execFinv_of_valid ha] at h
  split_ifs at h with h0
  · cases h
    cases hok
  · obtain ⟨-, hpos, hlt⟩ := inv_modulus_spec h0
    rw [commitW_result (hlt.trans (modulusValue_bounds m).2) h]
    exact ⟨hpos, hlt⟩

/-! The statements on the field commands. -/

/-- Settles O12: a field command commits the residue of its exact result, and the sum and the product of two registers are
natural numbers, whose residue is their remainder. -/
theorem fieldCommandsWriteReducedResults : Obligations.FieldCommandsWriteReducedResults := by
  refine ⟨⟨rfl, rfl, rfl, rfl, rfl, rfl⟩, fun m rd ra rb s ha hb => ⟨?_, ?_, ?_⟩⟩
  · rw [exec, execFadd, fieldCommand_of_valid ha hb, ← Nat.cast_add, residue_natCast]
    rfl
  · rw [exec, execFsub, fieldCommand_of_valid ha hb]
    rfl
  · rw [exec, execFmul, fieldCommand_of_valid ha hb, ← Nat.cast_mul, residue_natCast]
    rfl

/-- Settles O13: what FINV commits is the inverse, and inverses below M are unique. -/
theorem finvWritesTheInverse : Obligations.FinvWritesTheInverse := by
  intro m rd ra s ha h0
  obtain ⟨hinv, hpos, hlt⟩ := inv_modulus_spec h0
  refine ⟨_, hpos, hlt, hinv, fun u _ hu hau => inverse_unique hu hlt hau hinv, ?_⟩
  exact (execFinv_of_valid ha m rd).trans (if_neg h0)

/-- Settles O14: a commit ends without an error code, so ARITH_DOMAIN means an operand that is 0 mod M. -/
theorem finvRaisesExactlyAtZeroAndModulus : Obligations.FinvRaisesExactlyAtZeroAndModulus := by
  intro m rd ra s ha
  rw [← word_mod_modulus_eq_zero_iff]
  constructor
  · intro h
    by_contra h0
    have hcommit := ((execFinv_of_valid ha m rd).trans (if_neg h0)).symm.trans h
    exact ErrCode.noConfusion (congrArg State.errCode (Host.Outcome.next.inj hcommit))
  · intro h0
    exact (execFinv_of_valid ha m rd).trans (if_pos h0)

/-- Settles O15: a field command that ends without an error has committed a residue or an inverse. -/
theorem fieldResultsLieBelowTheModulus : Obligations.FieldResultsLieBelowTheModulus := fun _ _ _ _ _ _ hok =>
  ⟨fieldCommand_result_lt hok, fieldCommand_result_lt hok, fieldCommand_result_lt hok, execFinv_result_bounds hok⟩

end Sys2Proof.Machine
end

section
/-! PROOFS. The point functions follow the tangent and the chord rule, their laws on the curve, and the point commands
write what they answer (R110 to R123). -/

namespace Sys2Proof.Machine

open Sys2Proof.Claim

/-! The tangent and the chord rule (R111, R112). -/

/-- Settles O23: the slope is `3x^2 / 2y` in the field. -/
theorem pDoubleIsTheTangentRule : Obligations.PDoubleIsTheTangentRule := by
  have : Fact fieldPrime.Prime := ⟨fieldPrime_prime⟩
  refine ⟨rfl, fun x y hy => pDouble_of_y_eq_zero ((mod_fieldPrime_eq_zero_iff y).mp hy), fun x y hy => ?_⟩
  rw [Ne, mod_fieldPrime_eq_zero_iff] at hy
  obtain ⟨x3, y3, e, ⟨hx3, hy3⟩, ex, ey⟩ := pDouble_of_y_ne_zero (x := x) hy
  exact ⟨x3, y3, _, e, hx3, hy3, div_mul_cancel₀ _ (mul_ne_zero two_ne_zero_mod_fieldPrime hy), ex, ey⟩

@[simp] theorem pAdd_inf_right (p : Point) : pAdd p .inf = some p := by cases p <;> rfl

/-- Two finite points with equal x and different y: opposite points add to INF, all others raise (R112). -/
theorem pAdd_of_x_eq_of_y_ne {x y x' y' : Nat} (hx : x % fieldPrime = x' % fieldPrime)
    (hy : y % fieldPrime ≠ y' % fieldPrime) :
    pAdd (.fin x y) (.fin x' y') = if (y + y') % fieldPrime = 0 then some .inf else none := by
  simp [pAdd, hx, hy]

/-- Settles O24: the special cases in the order of R112, and the chord's slope as a quotient in the field. -/
theorem pAddIsTheChordRule : Obligations.PAddIsTheChordRule := by
  have : Fact fieldPrime.Prime := ⟨fieldPrime_prime⟩
  refine ⟨fun _ => rfl, pAdd_inf_right, fun x y x' y' hx hy => ?_, fun x y x' y' => pAdd_of_x_eq_of_y_ne,
    fun x y x' y' hx => ?_⟩
  · exact pAdd_of_eq ((mod_fieldPrime_eq_iff x x').mp hx) ((mod_fieldPrime_eq_iff y y').mp hy)
  · rw [Ne, mod_fieldPrime_eq_iff] at hx
    obtain ⟨x3, y3, e, ⟨hx3, hy3⟩, ex, ey⟩ := pAdd_of_x_ne (y := y) (y' := y') hx
    exact ⟨x3, y3, _, e, hx3, hy3, div_mul_cancel₀ _ (sub_ne_zero.mpr (Ne.symm hx)), ex, ey⟩

/-! The scan (R113). -/

/-- One round of the scan: double, and add P where the scalar's bit is set. -/
def scanRound (bit : Bool) (p acc : Point) : Option Point := if bit then pAdd (pDouble acc) p else some (pDouble acc)

theorem pScalarLoop_first_round (k : Nat) (p : Point) (i : Nat) (acc : Point) :
    pScalarLoop k p (i + 1) acc = (scanRound (k.testBit i) p acc).bind (pScalarLoop k p i) := by
  rw [pScalarLoop, scanRound]
  split_ifs
  · cases pAdd (pDouble acc) p <;> rfl
  · rfl

/-- The last round of a scan of k is the round of k's lowest bit; the rounds before it scan `k / 2`. -/
theorem pScalarLoop_last_round (k : Nat) (p : Point) : ∀ (i : Nat) (acc : Point),
    pScalarLoop k p (i + 1) acc = (pScalarLoop (k / 2) p i acc).bind (scanRound (k.testBit 0) p)
  | 0, acc => by
    have hend (m : Nat) : pScalarLoop m p 0 = some := rfl
    rw [pScalarLoop_first_round, hend, hend, Option.bind_fun_some, Option.bind_some]
  | i + 1, acc => by
    rw [pScalarLoop_first_round k, pScalarLoop_first_round (k / 2), Nat.testBit_succ, Option.bind_assoc]
    exact congrArg _ (funext (pScalarLoop_last_round k p i))

theorem pScalarLoop_zero (p : Point) : ∀ i : Nat, pScalarLoop 0 p i .inf = some .inf
  | 0 => rfl
  | i + 1 => by
    rw [pScalarLoop_first_round, Nat.zero_testBit]
    exact pScalarLoop_zero p i

theorem pScalar_zero (p : Point) : pScalar 0 p = some .inf := by rw [pScalar, pScalarLoop_zero]

/-- The scan of a number with bit 255 clear begins at bit 254: doubling INF is INF. -/
theorem pScalar_eq_loop_of_lt {k : Nat} (hk : k < 2 ^ 255) (p : Point) : pScalar k p = pScalarLoop k p 255 .inf := by
  rw [pScalar, pScalarLoop_first_round, Nat.testBit_lt_two_pow hk, scanRound, if_neg Bool.false_ne_true, pDouble,
    Option.bind_some]

/-- The scan of a number ends with the round of its lowest bit, after the scan of its half. -/
theorem pScalar_eq_bind_half {k m : Nat} (hm : m / 2 = k) (hk : k < 2 ^ 255) (p : Point) :
    pScalar m p = (pScalar k p).bind (scanRound (m.testBit 0) p) := by
  rw [pScalar_eq_loop_of_lt hk, pScalar, pScalarLoop_last_round, hm]

/-- Settles O25: the half of `2k` and of `2k + 1` is k, and their lowest bits are 0 and 1. -/
theorem pScalarIsDoubleAndAdd : Obligations.PScalarIsDoubleAndAdd := by
  intro k p hk
  have heven : scanRound ((2 * k).testBit 0) p = some ∘ pDouble := by
    funext q
    simp [scanRound]
  have hodd : scanRound ((2 * k + 1).testBit 0) p = fun q => pAdd (pDouble q) p := by
    funext q
    simp [scanRound]
  refine ⟨pScalar_zero p, ?_, ?_⟩
  · rw [pScalar_eq_bind_half (by omega) hk, heven, Option.map_eq_bind]
  · rw [pScalar_eq_bind_half (by omega) hk, hodd]

/-! The curves through a point (R116, R118). -/

/-- The claims' sameness of curves is a common c: finite points fix c, and INF takes the other point's. -/
theorem sameCurve_iff {p q : Point} : sameCurve p q ↔ ∃ c, p.LiesOn c ∧ q.LiesOn c := by
  cases p with
  | inf => simpa [sameCurve, Point.LiesOn] using exists_liesOn q
  | fin x y =>
  cases q with
  | inf => simp [sameCurve, Point.LiesOn]
  | fin x' y' => simp [sameCurve, Point.LiesOn, eq_comm]

/-- Settles O26: the scan stays on its point's curve, where the sum of two points is never an error. -/
theorem pScalarNeverRaises : Obligations.PScalarNeverRaises := by
  have : Fact fieldPrime.Prime := ⟨fieldPrime_prime⟩
  refine ⟨fun k p => ?_, fun p q hraise hsame => ?_⟩
  · obtain ⟨c, hp⟩ := exists_liesOn p
    obtain ⟨q, e, hq⟩ := hp.pScalar k
    exact ⟨q, e, sameCurve_iff.mpr ⟨c, hp, hq⟩⟩
  · obtain ⟨c, hp, hq⟩ := sameCurve_iff.mp hsame
    obtain ⟨r, e, -⟩ := hp.pAdd hq
    rw [hraise] at e
    cases e

/-- The block's curve is the one with `c = 7` (R18, R114). -/
theorem onCurve_iff_liesOn (p : Point) : onCurve p = true ↔ p.LiesOn 7 := by
  have : Fact fieldPrime.Prime := ⟨fieldPrime_prime⟩
  cases p with
  | inf => simp [onCurve, Point.LiesOn]
  | fin x y => rw [onCurve_fin_iff, Point.LiesOn, sub_eq_iff_eq_add']

/-- The sum of two finite points is reduced, whether they are or not: R112 reduces them first. -/
theorem pAdd_fin_reduced {x y x' y' : Nat} {r : Point} (h : pAdd (.fin x y) (.fin x' y') = some r) : r.Reduced := by
  have hmod (z : Nat) : z % fieldPrime < fieldPrime := Nat.mod_lt z fieldPrime_prime.pos
  have e : pAdd (.fin (x % fieldPrime) (y % fieldPrime)) (.fin (x' % fieldPrime) (y' % fieldPrime)) = some r := by
    simpa [pAdd] using h
  exact pAdd_reduced (p := .fin _ _) (q := .fin _ _) ⟨hmod x, hmod y⟩ ⟨hmod x', hmod y'⟩ e

/-- Two numbers below p that are equal in the field are equal. -/
theorem eq_of_cast_eq_of_lt {x y : Nat} (hx : x < fieldPrime) (hy : y < fieldPrime) (h : (x : ZMod fieldPrime) = y) :
    x = y := by
  rwa [← mod_fieldPrime_eq_iff, Nat.mod_eq_of_lt hx, Nat.mod_eq_of_lt hy] at h

section
variable [Fact fieldPrime.Prime]

/-- A point of the group has one reduced representation. -/
theorem Point.Represents.unique {q r : Point} {P : curve.Point} (hq : q.Represents P) (hr : r.Represents P)
    (hqred : q.Reduced) (hrred : r.Reduced) : q = r := by
  cases q with
  | inf =>
    obtain rfl : P = 0 := hq
    cases r with
    | inf => rfl
    | fin x' y' =>
      obtain ⟨_, h⟩ := hr
      cases h
  | fin x y =>
  obtain ⟨_, rfl⟩ := hq
  cases r with
  | inf => cases hr
  | fin x' y' =>
    obtain ⟨_, h⟩ := hr
    obtain ⟨hx, hy⟩ := WeierstrassCurve.Affine.Point.some.inj h
    rw [eq_of_cast_eq_of_lt hqred.1 hrred.1 hx, eq_of_cast_eq_of_lt hqred.2 hrred.2 hy]

/-- The sum of two finite points of the curve does not depend on their order: the group is commutative (R116). -/
theorem pAdd_fin_comm {x y x' y' : Nat} (hp : onCurve (.fin x y) = true) (hq : onCurve (.fin x' y') = true) :
    pAdd (.fin x y) (.fin x' y') = pAdd (.fin x' y') (.fin x y) := by
  obtain ⟨P, hP⟩ := exists_represents hp
  obtain ⟨Q, hQ⟩ := exists_represents hq
  obtain ⟨r, er, hr⟩ := hP.pAdd hQ
  obtain ⟨t, et, ht⟩ := hQ.pAdd hP
  rw [er, et, hr.unique (add_comm Q P ▸ ht) (pAdd_fin_reduced er) (pAdd_fin_reduced et)]

end

theorem pAdd_self (p : Point) : pAdd p p = some (pDouble p) := by
  cases p with
  | inf => rfl
  | fin x y => exact pAdd_of_eq rfl rfl

/-- Settles O27, law by law. -/
theorem pointLawsOnTheCurve : Obligations.PointLawsOnTheCurve := by
  have : Fact fieldPrime.Prime := ⟨fieldPrime_prime⟩
  intro p q hp hq
  refine ⟨pAdd_inf_right p, pScalar_zero p, fun hpinf hqinf _ => ?_, fun k => ?_, pAdd_self p⟩
  · cases p with
    | inf => exact absurd rfl hpinf
    | fin x y =>
    cases q with
    | inf => exact absurd rfl hqinf
    | fin x' y' => exact pAdd_fin_comm hp hq
  · obtain ⟨r, e, hr⟩ := ((onCurve_iff_liesOn p).mp hp).pScalar k
    exact ⟨r, e, (onCurve_iff_liesOn r).mpr hr⟩

/-! What the point commands write (R120 to R123). -/

/-- The claims' scalar write and completion are the model's commit (R25, R95). -/
theorem commitW_eq_withScalar (s : State) (rd : WIdx) (v : Nat) :
    commitW s rd v = .next (finished (withScalar s rd v) .none) := rfl

/-- The VALID bits of the two registers of a pair, set at once. -/
theorem setBit_pair (v : BitVec 16) (j : PIdx) :
    setBit (setBit v (xReg j).val) (yReg j).val = v ||| (3#16 <<< (2 * j.val)) := by
  have hbits : ∀ j : PIdx, (1#16 <<< (2 * j.val)) ||| (1#16 <<< (2 * j.val + 1)) = 3#16 <<< (2 * j.val) := by decide
  rw [setBit, setBit, BitVec.or_assoc]
  exact congrArg (v ||| ·) (hbits j)

/-- The claims' point write is the model's (R25). -/
theorem withPoint_eq_putPt (s : State) (j : PIdx) (q : Point) : withPoint s j q = s.putPt j q := by
  cases q <;> simp only [withPoint, State.putPt, setBit_pair] <;> rfl

/-- The claims' point write and completion are the model's commit (R25, R95). -/
theorem commitPt_eq_withPoint (s : State) (rd : PIdx) (q : Point) :
    commitPt s rd q = .next (finished (withPoint s rd q) .none) := by
  rw [withPoint_eq_putPt]
  rfl

theorem commitPtOrRaise_some (s : State) (rd : PIdx) (q : Point) :
    commitPtOrRaise s rd (some q) = .next (finished (withPoint s rd q) .none) := commitPt_eq_withPoint s rd q

/-- The curve equation on the raw coordinates, without a subtraction (R114). -/
theorem onCurve_fin_iff_mod_eq (x y : Nat) :
    onCurve (.fin x y) = true ↔ y * y % fieldPrime = (x * x * x + 7) % fieldPrime := by
  have : Fact fieldPrime.Prime := ⟨fieldPrime_prime⟩
  rw [onCurve_fin_iff, mod_fieldPrime_eq_iff]
  push_cast
  ring_nf

/-- Settles O22: INF is on the curve, and a finite point is where its equation holds. -/
theorem pchkWritesCurveMembership : Obligations.PchkWritesCurveMembership := by
  intro rd ra s hra
  have hexec : exec (.pchk rd ra) s = commitW s rd (if onCurve (s.point ra) then 1 else 0) := by
    rw [exec, execPchk, withPt_of_readable hra]
  rw [hexec]
  refine ⟨fun h => ?_, fun x y h => ?_⟩ <;> rw [h, commitW_eq_withScalar]
  · rfl
  · simp only [onCurve_fin_iff_mod_eq]

/-- Settles O18: PDBL commits its operand's double. -/
theorem pdblWritesTheDouble : Obligations.PdblWritesTheDouble := by
  intro rd ra s hra
  rw [exec, execPdbl, withPt_of_readable hra, commitPt_eq_withPoint]

/-- Settles O19: PADD commits the sum, and raises where PAdd does. -/
theorem paddWritesTheSumOrRaises : Obligations.PaddWritesTheSumOrRaises := by
  intro rd ra rb s hra hrb
  have hexec : exec (.padd rd ra rb) s = commitPtOrRaise s rd (pAdd (s.point ra) (s.point rb)) := by
    rw [exec, execPadd, withPt_of_readable hra, withPt_of_readable hrb]
  rw [hexec]
  refine ⟨fun q hq => ?_, fun x y x' y' hp hq hx hy hsum => ?_⟩
  · rw [hq, commitPtOrRaise_some]
  · rw [hp, hq, pAdd_of_x_eq_of_y_ne hx hy, if_neg hsum]
    rfl

/-- Settles O20: PMUL commits the multiple that PScalar answers. -/
theorem pmulWritesTheMultiple : Obligations.PmulWritesTheMultiple := by
  intro rd ra rb s q hra hrb hq
  have hk : pScalar (s.wReg ra).toNat (s.point rb) = some q := hq
  rw [exec, execPmul, withW_of_valid hra, withPt_of_readable hrb, hk, commitPtOrRaise_some]

/-- Settles O21: the numbers of the statement are the coordinates of G. -/
theorem pmulGWritesTheMultipleOfG : Obligations.PmulGWritesTheMultipleOfG := by
  intro rd ra s q hra hq
  have hk : pScalar (s.wReg ra).toNat basePoint = some q := hq
  rw [exec, execPmulG, withW_of_valid hra, hk, commitPtOrRaise_some]

end Sys2Proof.Machine
end

section
/-! PROOFS. The sign engine: its checks in their order, what a draw comes to and what its attempt commits or retries, and the
bound on the draws of one SIGN (R125 to R133, R146). -/

namespace Sys2Proof.Machine

open Sys2Proof.Claim

/-! The check step (R125, R146). -/

theorem exec_sign_of_no_draw {s : State} (hd : s.draw = none) (wr ws we wd : WIdx) :
    exec (.sign wr ws we wd) s = .next (signCheck we wd s) := by
  rw [exec, execSign, hd]

theorem signCheck_inputError {s : State} (hmsg : s.msgLen = 0#32) (we wd : WIdx) :
    signCheck we wd s = s.raiseSign .inputError 0 := by
  rw [signCheck, if_pos hmsg]

theorem signCheck_precondition {s : State} {we wd : WIdx} (hmsg : s.msgLen ≠ 0#32) (hkey : s.isValid wd = true)
    (hdigest : s.isValid we = false) : signCheck we wd s = s.raiseSign .precondition 0 := by
  rw [signCheck, if_neg hmsg, if_neg (by simp [hkey]), if_pos hdigest]

theorem signCheck_request {s : State} {we wd : WIdx} (hmsg : s.msgLen ≠ 0#32) (hkey : s.isValid wd = true)
    (hdigest : s.isValid we = true) :
    signCheck we wd s = { s with snap := ⟨s.wReg we, s.wReg wd⟩, attempts := 0 }.requestDraw := by
  rw [signCheck, if_neg hmsg, if_neg (by simp [hkey]), if_neg (by simp [hdigest])]

/-- Settles O28: the check step's four branches are its four lemmas, and the claims' endings are the model's. -/
theorem signChecksInOrder : Obligations.SignChecksInOrder := by
  intro wr ws we wd s hd
  rw [exec_sign_of_no_draw hd]
  refine ⟨fun hmsg => ?_, fun hmsg hkey => ?_, fun hmsg hkey hdigest => ?_, fun hmsg hkey hdigest => ?_⟩
  · rw [signCheck_inputError hmsg]
    rfl
  · rw [signCheck_keyFormat hmsg hkey]
    rfl
  · rw [signCheck_precondition hmsg hkey hdigest]
    rfl
  · rw [signCheck_request hmsg hkey hdigest]
    rfl

/-! The evaluation of a draw (R125, R128, R131). -/

theorem residue_groupOrder_lt (z : Int) : residue z groupOrder < groupOrder := residue_lt z groupOrder_prime.pos

/-- Every factor of `s = inv(k, n) * (e + d * r)` is a natural number, so its residue is its remainder. -/
theorem residue_signature_eq_mod (k e d r : Nat) :
    residue ((inv k groupOrder : Int) * (e + d * r)) groupOrder = inv k groupOrder * (e + d * r) % groupOrder := by
  exact_mod_cast residue_natCast (inv k groupOrder * (e + d * r)) groupOrder

/-- Settles O32: e and d enter a draw in its s alone, where they are summed and multiplied mod n. -/
theorem signUsesDigestAndKeyModN : Obligations.SignUsesDigestAndKeyModN := by
  intro k e d
  have hs (r : Nat) : inv k groupOrder * (e % groupOrder + d % groupOrder * r) % groupOrder =
      inv k groupOrder * (e + d * r) % groupOrder :=
    Nat.ModEq.mul_left _ ((Nat.mod_modEq e groupOrder).add ((Nat.mod_modEq d groupOrder).mul_right r))
  simp only [signDraw, residue_signature_eq_mod, hs]

theorem signDraw_of_out_of_range {k : Nat} (hk : k = 0 ∨ groupOrder ≤ k) (e d : Nat) : signDraw k e d = .reject := by
  rw [signDraw, if_pos hk]

/-- What a draw in [1, n) with a finite R comes to: r and s, or a rejection where one of them is 0. -/
theorem signDraw_of_finite {k x y : Nat} (hpos : 1 ≤ k) (hlt : k < groupOrder)
    (hR : pScalar k basePoint = some (.fin x y)) (e d : Nat) :
    signDraw k e d =
      if x % groupOrder = 0 ∨ inv k groupOrder * (e + d * (x % groupOrder)) % groupOrder = 0 then .reject
      else .signature (x % groupOrder) (inv k groupOrder * (e + d * (x % groupOrder)) % groupOrder) := by
  have hk : ¬ (k = 0 ∨ groupOrder ≤ k) := by omega
  rw [signDraw, if_neg hk, hR]
  simp only [residue_natCast, residue_signature_eq_mod]
  by_cases hr : x % groupOrder = 0 <;> simp [hr]

/-! An attempt (R126, R127, R132). -/

theorem exec_sign_of_draw {s : State} {k : Word} (hd : s.draw = some k) (wr ws we wd : WIdx) :
    exec (.sign wr ws we wd) s = signAttempt wr ws k s := by
  rw [exec, execSign, hd]

theorem signAttempt_of_signature {s : State} {k : Word} {r sv : Nat}
    (h : signDraw k.toNat s.snap.e.toNat s.snap.d.toNat = .signature r sv) (wr ws : WIdx) :
    signAttempt wr ws k s = .next (signCommit wr ws r sv s.takeDraw) := by
  rw [signAttempt, h]

theorem signAttempt_of_reject {s : State} {k : Word} (h : signDraw k.toNat s.snap.e.toNat s.snap.d.toNat = .reject)
    (wr ws : WIdx) : signAttempt wr ws k s = .next (signReject s.takeDraw) := by
  rw [signAttempt, h]

/-- The claims' DER write is the model's: past its end an encoding reads as 0 (R138). -/
theorem withDer_eq_putDer (s : State) (bytes : List Byte) : withDer s bytes = s.putDer bytes := by
  have hbyte (b : Fin 72) : (if b.val < bytes.length then bytes.getD b.val 0#8 else 0#8) = bytes.getD b.val 0#8 := by
    split_ifs with hb
    · rfl
    · exact (List.getD_eq_default bytes 0#8 (not_lt.mp hb)).symm
  simp only [withDer, State.putDer, hbyte]

/-- Settles O29: the draw comes to a signature, which the attempt commits. -/
theorem signCommitsAnAcceptedDraw : Obligations.SignCommitsAnAcceptedDraw := by
  intro wr ws we wd s k x y hd hpos hlt hR hr hs
  have hdraw := (signDraw_of_finite hpos hlt hR s.snap.e.toNat s.snap.d.toNat).trans (if_neg (not_or.mpr ⟨hr, hs⟩))
  rw [exec_sign_of_draw hd, signAttempt_of_signature hdraw, withDer_eq_putDer]
  rfl

/-- Settles O30: the draw is rejected, and the count of draws with this one decides between the two ways to go on. -/
theorem signRejectsAndRetriesUpToTheCap : Obligations.SignRejectsAndRetriesUpToTheCap := by
  intro wr ws we wd s k hd hbad
  have hdraw : signDraw k.toNat s.snap.e.toNat s.snap.d.toNat = .reject := by
    by_cases hk : k.toNat = 0 ∨ groupOrder ≤ k.toNat
    · exact signDraw_of_out_of_range hk _ _
    · rw [← or_assoc] at hbad
      obtain ⟨x, y, hR, hzero⟩ := hbad.resolve_left hk
      exact (signDraw_of_finite (by omega) (by omega) hR _ _).trans (if_pos hzero)
  rw [exec_sign_of_draw hd, signAttempt_of_reject hdraw]
  rcases signReject_cases s.takeDraw with ⟨hcap, e⟩ | ⟨hleft, e⟩ <;> rw [e]
  · exact ⟨fun _ => rfl, fun h => absurd hcap h⟩
  · exact ⟨fun h => absurd h hleft, fun _ => rfl⟩

/-! What a successful SIGN leaves in its destinations (R133). -/

/-- A SIGN's step that ends the command without an error is the commit of a draw's signature. -/
theorem execSign_success {wr ws we wd : WIdx} {s t : State} (hd : s.draw.isSome = true)
    (h : execSign wr ws we wd s = .next t) (hidle : t.eng = .idle) (hok : t.errCode = .none) :
    ∃ k r sv, signDraw k s.snap.e.toNat s.snap.d.toNat = .signature r sv ∧ t = signCommit wr ws r sv s.takeDraw := by
  rcases execSign_next h with ⟨hnone, -⟩ | ⟨k, -, rfl | ⟨r, sv, hdraw, rfl⟩ | ⟨-, rfl⟩⟩
  · simp [hnone] at hd
  · rcases signReject_cases s.takeDraw with ⟨-, e⟩ | ⟨-, e⟩ <;> rw [e] at hidle hok
    · cases hok
    · cases hidle
  · exact ⟨_, r, sv, hdraw, rfl⟩
  · cases hok

theorem signDraw_signature_bounds {k e d r sv : Nat} (h : signDraw k e d = .signature r sv) :
    (0 < r ∧ r < groupOrder) ∧ (0 < sv ∧ sv < groupOrder) := by
  obtain ⟨-, hr, hs, ⟨x, y, -, er⟩, es⟩ := signDraw_signature h
  exact ⟨⟨Nat.pos_of_ne_zero hr, er ▸ residue_groupOrder_lt _⟩, ⟨Nat.pos_of_ne_zero hs, es ▸ residue_groupOrder_lt _⟩⟩

/-- A commit leaves r and s in two different destinations. -/
theorem signCommit_results {wr ws : WIdx} (hne : wr ≠ ws) {r sv : Nat} (hr : r < groupOrder) (hs : sv < groupOrder)
    (s : State) : (signCommit wr ws r sv s).w[wr].toNat = r ∧ (signCommit wr ws r sv s).w[ws].toNat = sv := by
  have hval : ws.val ≠ wr.val := fun e => hne (Fin.ext e.symm)
  have hword {v : Nat} (hv : v < groupOrder) : (wordOf v).toNat = v := by
    rw [wordOf, BitVec.toNat_ofNat, Nat.mod_eq_of_lt (hv.trans groupOrder_lt)]
  simp [signCommit, hval, hword hr, hword hs]

/-- Settles O31: the commit's r and s are residues mod n, and neither is 0. -/
theorem signResultsLieInRange : Obligations.SignResultsLieInRange := by
  intro wr ws we wd s t hne hd h hidle hok
  obtain ⟨k, r, sv, hdraw, rfl⟩ := execSign_success hd h hidle hok
  obtain ⟨⟨hr, hrn⟩, ⟨hs, hsn⟩⟩ := signDraw_signature_bounds hdraw
  obtain ⟨er, es⟩ := signCommit_results hne hrn hsn s.takeDraw
  rw [er, es]
  exact ⟨hr, hrn, hs, hsn⟩

/-! The rounds of a waiting SIGN (R66, R92, R127). -/

/-- The state with other agents' steps to come. -/
def State.withAgenda (s : State) (a : List Event) : State := { s with agenda := a }

theorem step_of_agenda {s : State} {e : Event} {rest : List Event} (h : s.agenda = e :: rest) :
    step s = perform e (s.withAgenda rest) := step_cons h

theorem State.Inv.withAgenda {s : State} (h : s.Inv) (a : List Event) : (s.withAgenda a).Inv :=
  h.with_surroundings a s.resp s.freeCount

theorem deliver_withAgenda (s : State) (a : List Event) (b : Vector Byte 32) :
    (s.withAgenda a).deliver b = (s.deliver b).withAgenda a := by
  by_cases hwait : s.rst = false ∧ s.eng = .waitEntropy
  · obtain ⟨hr, he⟩ := hwait
    rw [deliver_waiting hr he, deliver_waiting (s := s.withAgenda a) hr he]
    rfl
  · rw [not_and_or, Bool.not_eq_false] at hwait
    rw [deliver_still hwait, deliver_still (s := s.withAgenda a) hwait]

theorem run_succ_of_step {M : Host.Core} {s t : M.State} (h : M.step s = .next t) (n : Nat) : M.run (n + 1) s = M.run n t := by
  rw [Host.Core.run, h]

/-- A round of the agenda is the delivery of its value, then the engine's turn. -/
theorem run_rounds_cons {s t : State} {b : Vector Byte 32} {bs : List (Vector Byte 32)} (hag : s.agenda = rounds (b :: bs))
    (hturn : engineTurn ((s.deliver b).withAgenda (rounds bs)) = .next t) :
    core.run (2 * (b :: bs).length) s = core.run (2 * bs.length) t := by
  have hdeliver : step s = .next ((s.deliver b).withAgenda (.engine :: rounds bs)) := by
    rw [step_of_agenda hag, ← deliver_withAgenda]
    rfl
  have hengine : step ((s.deliver b).withAgenda (.engine :: rounds bs)) = .next t := hturn
  calc core.run (2 * bs.length + 2) s
      = core.run (2 * bs.length + 1) ((s.deliver b).withAgenda (.engine :: rounds bs)) := run_succ_of_step hdeliver _
    _ = core.run (2 * bs.length) t := run_succ_of_step hengine _

/-- An idle block lets deliveries and turns pass (R67, R96). -/
theorem run_rounds_of_idle : ∀ {bs : List (Vector Byte 32)} {s : State}, s.eng = .idle → s.agenda = rounds bs →
    core.run (2 * bs.length) s = .next (s.withAgenda [])
  | [], s, _, hag => by
    have hs : s.withAgenda s.agenda = s := rfl
    rw [show s.agenda = [] from hag] at hs
    rw [hs]
    rfl
  | b :: bs, s, he, hag => by
    have hturn : engineTurn ((s.deliver b).withAgenda (rounds bs)) = .next (s.withAgenda (rounds bs)) := by
      rw [deliver_still (.inr (by simp [he]))]
      exact engineTurn_still (.inr (by simp [State.withAgenda, he]))
    exact (run_rounds_cons hag hturn).trans (run_rounds_of_idle (s := s.withAgenda (rounds bs)) he rfl)

/-- A block that waits for entropy is not in reset (R166). -/
theorem State.Inv.rst_eq_false_of_waiting {s : State} (h : s.Inv) (he : s.eng = .waitEntropy) : s.rst = false := by
  obtain ⟨-, -, -, -, hheld⟩ := h
  by_contra hr
  have hreset : s = s.resetBlock := hheld (by simpa using hr)
  rw [hreset] at he
  cases he

/-- A waiting SIGN has draws left, and its word is latched (R63, R127). -/
theorem State.Inv.waiting_sign {s : State} (h : s.Inv) (he : s.eng = .waitEntropy) :
    s.attempts < s.cfg.signMaxAttempts ∧ ∃ wr ws we wd, decode s.cur = .row (.sign wr ws we wd) := by
  obtain ⟨-, -, ⟨-, hsign⟩, -⟩ := h
  obtain ⟨hleft, hsnap⟩ := hsign (.inl he)
  exact ⟨hleft, hsnap.decode_sign⟩

/-- The engine's turn with a draw held is the SIGN's attempt: unless R of an accepted nonce is INF (log entry 9), it ends the
SIGN, or counts the draw and requests the next (R126, R127). -/
theorem engineTurn_of_held_draw {s : State} {k : Word} {wr ws we wd : WIdx} (hr : s.rst = false) (he : s.eng = .run)
    (hdec : decode s.cur = .row (.sign wr ws we wd)) (hd : s.draw = some k)
    (hx : signDraw k.toNat s.snap.e.toNat s.snap.d.toNat ≠ .noX) :
    ∃ t, engineTurn s = .next t ∧
      ((t.eng = .idle ∧ t.done = true ∧ t.agenda = s.agenda) ∨ t = s.takeDraw.requestDraw) := by
  rw [engineTurn_run hr he, runWord_row hdec, exec_sign_of_draw hd]
  cases hdraw : signDraw k.toNat s.snap.e.toNat s.snap.d.toNat with
  | reject =>
    refine ⟨_, signAttempt_of_reject hdraw wr ws, ?_⟩
    rcases signReject_cases s.takeDraw with ⟨-, e⟩ | ⟨-, e⟩ <;> rw [e]
    · exact .inl ⟨rfl, rfl, rfl⟩
    · exact .inr rfl
  | signature r sv => exact ⟨_, signAttempt_of_signature hdraw wr ws, .inl ⟨rfl, rfl, rfl⟩⟩
  | domainError => exact absurd hdraw (signDraw_ne_domainError _ _ _)
  | noX => exact absurd hdraw hx

/-- The engine's turn after a delivery to a waiting SIGN ends the SIGN, or leaves it waiting in the invariant, with the same
operands and one draw more made (R66, R126). -/
theorem engineTurn_after_delivery {s : State} (hinv : s.Inv) (he : s.eng = .waitEntropy) {b : Vector Byte 32}
    (hx : signDraw (drawOf b).toNat s.snap.e.toNat s.snap.d.toNat ≠ .noX) (a : List Event) :
    ∃ t, engineTurn ((s.deliver b).withAgenda a) = .next t ∧
      ((t.eng = .idle ∧ t.done = true ∧ t.agenda = a) ∨
        (t.Inv ∧ t.eng = .waitEntropy ∧ t.agenda = a ∧ t.attempts = s.attempts + 1 ∧ t.cfg = s.cfg ∧ t.snap = s.snap)) := by
  have hr := hinv.rst_eq_false_of_waiting he
  obtain ⟨-, wr, ws, we, wd, hdec⟩ := hinv.waiting_sign he
  have hheld := (hinv.deliver b).1.withAgenda a
  rw [deliver_waiting hr he] at hheld ⊢
  obtain ⟨t, hturn, hend⟩ := engineTurn_of_held_draw
    (s := State.withAgenda { s with draw := some (drawOf b), entReq := false, eng := .run } a) hr rfl hdec rfl hx
  refine ⟨t, hturn, hend.imp_right ?_⟩
  rintro rfl
  exact ⟨(hheld.engineTurn hturn).1, rfl, rfl, rfl, rfl, rfl⟩

/-- A waiting SIGN whose requests are answered up to its cap ends within them: a round that does not end it leaves it
waiting with one draw fewer left, and while it waits it has draws left. -/
theorem exists_run_rounds_of_waiting : ∀ {bs : List (Vector Byte 32)} {s : State}, s.Inv → s.eng = .waitEntropy →
    s.agenda = rounds bs → bs.length = s.cfg.signMaxAttempts - s.attempts →
    (∀ b ∈ bs, signDraw (drawOf b).toNat s.snap.e.toNat s.snap.d.toNat ≠ .noX) →
    ∃ t : State, core.run (2 * bs.length) s = .next t ∧ t.eng = .idle ∧ t.done = true ∧ t.agenda = []
  | [], s, hinv, he, _, hlen, _ => by
    obtain ⟨hleft, -⟩ := hinv.waiting_sign he
    rw [List.length_nil] at hlen
    omega
  | b :: bs, s, hinv, he, hag, hlen, hx => by
    obtain ⟨hxb, hxbs⟩ := List.forall_mem_cons.mp hx
    obtain ⟨t, hturn, hend⟩ := engineTurn_after_delivery hinv he hxb (rounds bs)
    rw [run_rounds_cons hag hturn]
    rcases hend with ⟨hidle, hdone, htag⟩ | ⟨htinv, hwait, htag, hcount, hcfg, hsnap⟩
    · exact ⟨_, run_rounds_of_idle hidle htag, hidle, hdone, rfl⟩
    · refine exists_run_rounds_of_waiting htinv hwait htag ?_ (by rwa [hsnap])
      rw [List.length_cons] at hlen
      rw [hcount, hcfg]
      omega

/-- Settles O34: the agenda is no part of the invariant, nor of what the draws come to. -/
theorem signEndsWithinTheCap : Obligations.SignEndsWithinTheCap := by
  intro s bs hinv he hlen hx
  exact exists_run_rounds_of_waiting (hinv.withAgenda (rounds bs)) he rfl hlen hx

end Sys2Proof.Machine
end

section
/-! PROOFS. The DER encoder: its byte strings are minimal and their values are the words they encode, the lengths of an
encoding, the reader that undoes it, and the state that DER leaves (R135 to R141). -/

namespace Sys2Proof.Machine

open Sys2Proof.Claim

/-! The value of a big-endian string. -/

/-- The first byte of a string has the highest weight. -/
theorem beValue_cons (b : Byte) (bs : List Byte) : beValue (b :: bs) = b.toNat * 256 ^ bs.length + beValue bs := by
  induction bs using List.reverseRecOn with
  | nil => simp [beValue]
  | append_singleton bs c ih =>
    rw [← List.cons_append, beValue_concat, ih, beValue_concat, List.length_append, List.length_singleton, pow_succ]
    ring

@[simp] theorem beValue_zero_cons (bs : List Byte) : beValue (0#8 :: bs) = beValue bs := by simp [beValue_cons]

/-- The bytes with which `wordBytes` begins write the word's high bits. -/
theorem beValue_high_bytes (v : Word) {n : Nat} (hn : n ≤ 32) :
    beValue ((List.range n).map fun t => v.extractLsb' (8 * (31 - t)) 8) = v.toNat / 2 ^ (8 * (32 - n)) := by
  induction n with
  | zero => simp [beValue, Nat.div_eq_of_lt v.isLt]
  | succ n ih =>
    have hexp : 8 * (32 - n) = 8 * (31 - n) + 8 := by omega
    have hlast : 32 - (n + 1) = 31 - n := by omega
    have hbyte : (v.extractLsb' (8 * (31 - n)) 8).toNat = v.toNat / 2 ^ (8 * (31 - n)) % 256 := by
      simp [BitVec.extractLsb'_toNat, Nat.shiftRight_eq_div_pow]
    rw [List.range_succ, List.map_append, List.map_singleton, beValue_concat, ih (by omega), hbyte, hexp, hlast,
      pow_add, ← Nat.div_div_eq_div_mul]
    exact Nat.div_add_mod _ 256

theorem beValue_wordBytes (v : Word) : beValue (wordBytes v) = v.toNat := by
  simpa [wordBytes] using beValue_high_bytes v le_rfl

theorem beValue_dropWhile_zero (bs : List Byte) : beValue (bs.dropWhile fun b => b == 0#8) = beValue bs := by
  induction bs with
  | nil => rfl
  | cons b bs ih =>
    rw [List.dropWhile_cons]
    split_ifs with hb
    · rw [ih, beq_iff_eq.mp hb, beValue_zero_cons]
    · rfl

/-! The content of an INTEGER (R135). -/

/-- `be_bytes` writes the word, and it begins with a zero byte for the word 0 only (R135). -/
theorem beBytes_spec (v : Word) :
    beValue (beBytes v) = v.toNat ∧ ∃ b bs, beBytes v = b :: bs ∧ (v ≠ 0#256 → b ≠ 0#8) := by
  have hval : beValue ((wordBytes v).dropWhile fun b => b == 0#8) = v.toNat := by
    rw [beValue_dropWhile_zero, beValue_wordBytes]
  unfold beBytes
  split
  · next hnil =>
    rw [hnil] at hval
    exact ⟨hval, 0#8, [], rfl, fun hv => absurd (BitVec.eq_of_toNat_eq hval.symm) hv⟩
  · next b bs hcons =>
    rw [hcons] at hval
    refine ⟨hval, b, bs, rfl, fun _ => ?_⟩
    have hhead := List.head?_dropWhile_not (fun b => b == 0#8) (wordBytes v)
    simpa [hcons] using hhead

/-- The sign pad leaves the value as it is, and the padded string's first byte has its high bit clear (R135). -/
theorem padSign_spec {bs : List Byte} (h : bs ≠ []) :
    beValue (padSign bs) = beValue bs ∧ ∃ b cs, padSign bs = b :: cs ∧ b < 0x80#8 := by
  obtain ⟨b, bs, rfl⟩ := List.exists_cons_of_ne_nil h
  simp only [padSign]
  split_ifs with hb
  · exact ⟨beValue_zero_cons _, 0#8, b :: bs, rfl, by decide⟩
  · exact ⟨rfl, b, bs, rfl, BitVec.not_le.mp hb⟩

/-- A first byte below 0x80 gets no sign pad. -/
theorem padSign_of_lt {b : Byte} (h : b < 0x80#8) (bs : List Byte) : padSign (b :: bs) = b :: bs :=
  if_neg (BitVec.not_le.mpr h)

/-- A word below `2 ^ 255` has at most 32 content bytes: only a string of all 32 could be padded past that, and its first
byte is the word's top byte (R139). -/
theorem derInt_length_of_lt {v : Word} (hv : v.toNat < 2 ^ 255) : (derInt v).length ≤ 34 := by
  obtain ⟨hval, b, bs, hbytes, -⟩ := beBytes_spec v
  have hlen := (beBytes_length v).2
  have hcontent : (padSign (beBytes v)).length ≤ 32 := by
    rcases Nat.lt_or_ge (beBytes v).length 32 with hlt | hge
    · have hpad := (padSign_length (beBytes v)).2
      omega
    · rw [hbytes] at hval hlen hge ⊢
      have htail : bs.length = 31 := by
        rw [List.length_cons] at hlen hge
        omega
      rw [beValue_cons, htail] at hval
      have hb : b.toNat < 0x80 := by omega
      rwa [padSign_of_lt (BitVec.lt_def.mpr hb)]
  simp only [derInt, List.length_cons]
  omega

/-! The length bytes (R135, R136). -/

/-- The length byte of an INTEGER counts its content. -/
theorem derInt_length_byte (v : Word) : (derInt v).tail.head? = some (BitVec.ofNat 8 ((derInt v).length - 2)) := rfl

/-- The length byte of the SEQUENCE counts the two INTEGERs. -/
theorem derSig_length_byte (r sv : Word) :
    (derSig r sv).tail.head? = some (BitVec.ofNat 8 ((derSig r sv).length - 2)) := rfl

/-! The reader undoes the encoding (R141). -/

/-- The reader accepts a string with a short length and a sign bit that is clear, and takes as many bytes as its length. -/
theorem readInteger_of_content {b : Byte} {cs : List Byte} (hb : b < 0x80#8) (hlen : (b :: cs).length < 256)
    (rest : List Byte) :
    readInteger (0x02#8 :: BitVec.ofNat 8 (b :: cs).length :: (b :: cs ++ rest)) = some (beValue (b :: cs), rest) := by
  have hcount : (BitVec.ofNat 8 (b :: cs).length).toNat = (b :: cs).length := Nat.mod_eq_of_lt hlen
  have hne : BitVec.ofNat 8 (b :: cs).length ≠ 0#8 := fun h => by
    rw [h] at hcount
    simp at hcount
  rw [List.cons_append, readInteger, hcount, if_pos ⟨rfl, hne, by simp, hb⟩, ← List.cons_append, List.take_left, List.drop_left]

theorem readInteger_derInt (v : Word) (rest : List Byte) : readInteger (derInt v ++ rest) = some (v.toNat, rest) := by
  obtain ⟨hval, c, cs, hbytes, -⟩ := beBytes_spec v
  obtain ⟨hpad, b, ds, hcontent, hb⟩ := padSign_spec (bs := beBytes v) (by simp [hbytes])
  have hlen := (beBytes_length v).2
  have hlen' := (padSign_length (beBytes v)).2
  rw [hcontent] at hpad hlen'
  rw [← hval, ← hpad, derInt, hcontent]
  exact readInteger_of_content hb (by omega) rest

theorem readSignature_derSig (r sv : Word) : readSignature (derSig r sv) = some (r.toNat, sv.toNat) := by
  obtain ⟨-, hhi⟩ := derSig_length_bounds r sv
  have hbody : (derInt r ++ derInt sv).length ≤ 70 := by
    simp only [derSig, List.length_cons] at hhi
    omega
  have hcount : (BitVec.ofNat 8 (derInt r ++ derInt sv).length).toNat = (derInt r ++ derInt sv).length :=
    Nat.mod_eq_of_lt (by omega)
  have hshort : BitVec.ofNat 8 (derInt r ++ derInt sv).length < 0x80#8 :=
    BitVec.lt_def.mpr (hcount.trans_lt (hbody.trans_lt (by decide)))
  have hsecond : readInteger (derInt sv) = some (sv.toNat, []) := by simpa using readInteger_derInt sv []
  rw [derSig, readSignature, if_pos ⟨rfl, hshort, hcount⟩]
  simp only [readInteger_derInt, hsecond]

/-! The command (R137, R138). -/

theorem execDer_of_valid {s : State} {wr ws : WIdx} (hr : s.isValid wr = true) (hs : s.isValid ws = true) :
    execDer wr ws s = .next ((s.putDer (derSig (s.wReg wr) (s.wReg ws))).complete .none) := by
  rw [execDer, withW_of_valid hr, withW_of_valid hs]

/-! The obligations. -/

/-- Settles O37: the first byte of `be_bytes` decides the pad. -/
theorem derIntegersAreMinimal : Obligations.DerIntegersAreMinimal := by
  refine ⟨by decide, fun v => ?_⟩
  obtain ⟨hval, b, bs, hbytes, hb⟩ := beBytes_spec v
  refine ⟨b, bs, hbytes, hval, hb, ?_⟩
  simp only [derInt, hbytes, padSign]
  split_ifs <;> rfl

/-- Settles O38: the lengths of the two INTEGERs add up, each at most 34 bytes below `2 ^ 255`. -/
theorem derLengthsAreBounded : Obligations.DerLengthsAreBounded := by
  refine ⟨fun v => ?_, fun r sv => ?_⟩
  · obtain ⟨hlo, hhi⟩ := derInt_length v
    exact ⟨hlo, hhi, derInt_length_byte v, by omega⟩
  · obtain ⟨hlo, hhi⟩ := derSig_length_bounds r sv
    refine ⟨derSig_length r sv, hlo, hhi, derSig_length_byte r sv, by omega, fun hr hs => ?_⟩
    have hr' := derInt_length_of_lt hr
    have hs' := derInt_length_of_lt hs
    rw [derSig_length]
    omega

/-- Settles O39: each INTEGER is read back with what follows it left over. -/
theorem derRoundTrip : Obligations.DerRoundTrip := readSignature_derSig

/-- Settles O36: both operands are readable, so the command commits. -/
theorem derWritesTheEncoding : Obligations.DerWritesTheEncoding := by
  intro wr ws s hr hs
  rw [withDer_eq_putDer]
  exact execDer_of_valid hr hs

end Sys2Proof.Machine
end

section
/-! PROOFS. The hardware reset: the assertion of `RST` resets the block, no agent's step changes the block while `RST` is
asserted, and the release changes nothing else (R165, R166). -/

namespace Sys2Proof.Machine

open Sys2Proof.Claim

/-- While `RST` is asserted no write is performed, so an access leaves all but its answer and the count of free values
(R166, log entry 5). -/
theorem hostAccess_of_rst {s : State} (hr : s.rst = true) (a : Access) :
    ∃ r c, s.hostAccess a = { s with resp := r, freeCount := c } := by
  rcases hostAccess_cases s a with h | ⟨hreleased, -⟩
  · exact h
  · rw [hr] at hreleased
    cases hreleased

/-- While `RST` is asserted, a step other than one of `RST` itself leaves all but the answer and the count of free values:
the engine has no turn and a delivery is discarded (R166). -/
theorem perform_of_rst {s : State} (hr : s.rst = true) {e : Event} (ha : e ≠ .assertRst) (hl : e ≠ .releaseRst) :
    ∃ r c, perform e s = .next { s with resp := r, freeCount := c } := by
  cases e with
  | host a =>
    obtain ⟨r, c, h⟩ := hostAccess_of_rst hr a
    exact ⟨r, c, congrArg Host.Outcome.next h⟩
  | engine => exact ⟨s.resp, s.freeCount, engineTurn_still (.inl hr)⟩
  | entropy b => exact ⟨s.resp, s.freeCount, congrArg Host.Outcome.next (deliver_still (.inl hr) b)⟩
  | assertRst => exact absurd rfl ha
  | releaseRst => exact absurd rfl hl

/-- Settles O56: the assertion is a reset of the block, and every other agent's step while it lasts is held off. -/
theorem hardwareResetHoldsTheBlock : Obligations.HardwareResetHoldsTheBlock := by
  intro s
  have hassert : s.assertRst = { atReset s with rst := true } := rfl
  exact ⟨congrArg Host.Outcome.next hassert, fun hr _ ha hl => perform_of_rst hr ha hl, rfl⟩

end Sys2Proof.Machine
end
